-- ==== Sys2Proof/Word.lean ====
section
/-! DEFINITION. The word types and the smallest named sets of the framebuffer packer (FBP). -/

namespace Sys2Proof

/-- A byte: an integer in 0..255 (R17), bit 0 the least significant. -/
abbrev Byte := BitVec 8

/-- The host operation word `W` (R91): 64 bits, presented whole. -/
abbrev Word := BitVec 64

/-- The drawing mode (R19). The numbering is the decoder's (R95). -/
inductive Mode where
  | clear
  | set
  | invert
  deriving DecidableEq, Repr

/-- A rotation in quarter turns clockwise (R43, R160): a two-bit register's four values. -/
inductive Rot where
  | r0
  | r1
  | r2
  | r3
  deriving DecidableEq, Repr

/-- The direction of a run of pixels (R170). -/
inductive Dir where
  | horizontal
  | vertical
  deriving DecidableEq, Repr

end Sys2Proof
end

