-- ==== Sys2Proof/Config.lean ====
section
/-! DEFINITION. What an implementation fixes (the construction parameters R7 to R12), the vocabulary of the
transaction interface, and the free values: opaque constants with no body. -/

namespace Sys2Proof

/-- The controller commands FBP emits, one per field of `CMDSET` that is a command byte (R110). -/
inductive Cmd where
  | setLowColumn
  | setHighColumn
  | setStartLine
  | setContrast
  | chargePump
  | segRemapFixed
  | displayAllOnResume
  | normalDisplay
  | invertDisplay
  | setMultiplex
  | displayOff
  | displayOn
  | pageAddr
  | comScanFixed
  | setDisplayOffset
  | setDisplayClockDiv
  | setPrecharge
  | setComPins
  | setVcomDetect
  deriving DecidableEq, Repr

/-- `CMDSET` (R10, R110): the byte of every controller command and the two constant argument bytes. It is a
parameter of the machine; the source gives none of these bytes. -/
structure CmdSet where
  setLowColumn : Byte
  setHighColumn : Byte
  setStartLine : Byte
  setContrast : Byte
  chargePump : Byte
  argChargePumpOn : Byte
  segRemapFixed : Byte
  displayAllOnResume : Byte
  normalDisplay : Byte
  invertDisplay : Byte
  setMultiplex : Byte
  displayOff : Byte
  displayOn : Byte
  pageAddr : Byte
  comScanFixed : Byte
  setDisplayOffset : Byte
  setDisplayClockDiv : Byte
  argClockDiv : Byte
  setPrecharge : Byte
  setComPins : Byte
  setVcomDetect : Byte
  deriving DecidableEq, Repr

/-- One bracketed bus transaction (R18, R112): `BusCmd(c, args)` or `BusData(bytes)`. -/
inductive Txn where
  | cmd (c : Byte) (args : List Byte)
  | data (bytes : List Byte)
  deriving DecidableEq, Repr

/-- TRANSPORT's answer to a transaction (R14). -/
inductive Answer where
  | ok
  | fail
  deriving DecidableEq, Repr

/-- One event of `TRACE` (R57): a transaction with its answer, or a delay. -/
inductive Event where
  | bus (t : Txn) (r : Answer)
  | delay (ms : Nat)
  deriving DecidableEq, Repr

/-- A splash asset (R56): width, height and its bits row by row, `bits[j * w + i]` being `asset.bit(i, j)` of
R240. DESIGN CHOICE (safe, log 12): the packing of the bits into bytes is not in the source, so the asset is
given unpacked. -/
structure Asset where
  w : Nat
  h : Nat
  bits : List Bool
  deriving DecidableEq, Repr

/-- `SPLASH` (R12, R56, R240): two optional assets chosen by a height threshold, the position of the blit, and
whether the buffer is cleared first. -/
structure Splash where
  threshold : Nat
  below : Option Asset
  atOrAbove : Option Asset
  x0 : Int
  y0 : Int
  clearsFirst : Bool
  deriving DecidableEq, Repr

/-- The registers that construction fixes and nothing writes afterwards (R35 to R42), with the parameters
`CMDSET`, `INIT_DELAY_MS` and `SPLASH` (R10, R12). -/
structure Params where
  width : Nat
  height : Nat
  cfgRotation : Rot
  noSplash : Bool
  colOffset : Byte
  pageOffset : Byte
  dispOffset : Byte
  startLine : Byte
  cmds : CmdSet
  /-- `INIT_DELAY_MS` (R232): entry `k` is step `k`'s delay in milliseconds; a missing entry is 0. -/
  initDelay : List Nat
  splash : Option Splash
  deriving DecidableEq, Repr

/-- `RESULT` after an operation that is neither GETPIXEL nor RDBUF "is unspecified" (R97): a free value (safe,
log 10). -/
opaque Config.freeResult : Nat → Byte

/-- How many bytes of a failed transaction reached the controller is unknown (R200, decision D29): a free
value, cut off at the transaction's length where it is used (safe, log 8). -/
opaque Config.freeDelivered : Nat → Nat

/-- What the controller holds after a failed INIT is indeterminate (R59, R242): free values, byte `k` of draw `n`
(safe, log 8). -/
opaque Config.freeController : Nat → Nat → Byte

/-- The argument byte a controller command works with when its transaction carried none: a free value (log 9). -/
opaque Config.freeArg : Nat → Byte

/-- TRANSPORT (R14) where `State` lists no scripted answer: an oracle over the history of events and the
transaction asked for, constrained by no rule; `true` is `ok` (safe, log 11). -/
opaque Config.transportOk : List Event → Txn → Bool

/-- `PROFILE` (R11, R236) at every panel size but the one the source pins: an unconstrained total function to
(COM-pin byte, contrast byte) (safe, log 13). -/
opaque Config.profileOther : Nat → Nat → Byte × Byte

end Sys2Proof
end

