-- ==== Sys2Proof/Syntax.lean ====
section
/-! DEFINITION. The instructions: one constructor per row of spec/opcode_table.json, 18 host operations (R92) and
19 controller commands (R110, R111). -/

namespace Sys2Proof

/-- The 18 host operations, by name alone: what `SEQ.op` holds while one of them runs (R27, R92). -/
inductive Op where
  | presetup
  | init
  | shutdown
  | release
  | setpixel
  | getpixel
  | fill
  | rdbuf
  | hspan
  | vspan
  | lhspan
  | lvspan
  | flush
  | setpower
  | setinvert
  | setcontrast
  | setrotation
  | rawcmd
  deriving DecidableEq, Repr

/-- An instruction. The first 18 are operations of HOST, executed by FBP, operands in R92's order; coordinates
and lengths are the signed integers of R94. The last 19 are commands on the downstream bus, executed by the
display controller; their field or argument byte is what follows the command (R110, R113). -/
inductive Instr where
  | presetup
  | init
  | shutdown
  | release
  | setpixel (x y : Int) (mode : Mode)
  | getpixel (x y : Int)
  | fill (mode : Mode)
  | rdbuf (index : Nat)
  | hspan (x y len : Int) (mode : Mode)
  | vspan (x y len : Int) (mode : Mode)
  | lhspan (x y len : Int) (mode : Mode)
  | lvspan (x y len : Int) (mode : Mode)
  | flush
  | setpower (on : Bool)
  | setinvert (inv : Bool)
  | setcontrast (value : Byte)
  | setrotation (r : Rot)
  | rawcmd (cmd : Byte) (args : List Byte)
  | cmdSetLowColumn (c : BitVec 4)
  | cmdSetHighColumn (c : BitVec 4)
  | cmdSetStartLine (l : BitVec 6)
  | cmdSetContrast (arg : Byte)
  | cmdChargePump (arg : Byte)
  | cmdSegRemapFixed
  | cmdDisplayAllOnResume
  | cmdNormalDisplay
  | cmdInvertDisplay
  | cmdSetMultiplex (arg : Byte)
  | cmdDisplayOff
  | cmdDisplayOn
  | cmdPageAddr (p : BitVec 4)
  | cmdComScanFixed
  | cmdSetDisplayOffset (arg : Byte)
  | cmdSetDisplayClockDiv (arg : Byte)
  | cmdSetPrecharge (arg : Byte)
  | cmdSetComPins (arg : Byte)
  | cmdSetVcomDetect (arg : Byte)
  deriving DecidableEq, Repr

end Sys2Proof
end

