-- ==== Sys2Proof/WellFormed.lean ====
section
/-! DEFINITION. Well-formed instructions (operands the encoding can hold, R93, R94), command sets (R114) and
construction parameters (R8). -/

namespace Sys2Proof

/-- A signed 16-bit operand (R94). -/
def fitsI16 (v : Int) : Bool := decide (-32768 ≤ v) && decide (v ≤ 32767)

/-- The operands an operation word or a command byte can carry (R93, R94, R213). -/
def Instr.wellFormed : Instr → Bool
  | .setpixel x y _ => fitsI16 x && fitsI16 y
  | .getpixel x y => fitsI16 x && fitsI16 y
  | .rdbuf index => decide (index < 65536)
  | .hspan x y len _ => fitsI16 x && fitsI16 y && fitsI16 len
  | .vspan x y len _ => fitsI16 x && fitsI16 y && fitsI16 len
  | .lhspan x y len _ => fitsI16 x && fitsI16 y && fitsI16 len
  | .lvspan x y len _ => fitsI16 x && fitsI16 y && fitsI16 len
  | .rawcmd _ args => decide (args.length ≤ 3)
  | .presetup => true
  | .init => true
  | .shutdown => true
  | .release => true
  | .fill _ => true
  | .flush => true
  | .setpower _ => true
  | .setinvert _ => true
  | .setcontrast _ => true
  | .setrotation _ => true
  | .cmdSetLowColumn _ => true
  | .cmdSetHighColumn _ => true
  | .cmdSetStartLine _ => true
  | .cmdSetContrast _ => true
  | .cmdChargePump _ => true
  | .cmdSegRemapFixed => true
  | .cmdDisplayAllOnResume => true
  | .cmdNormalDisplay => true
  | .cmdInvertDisplay => true
  | .cmdSetMultiplex _ => true
  | .cmdDisplayOff => true
  | .cmdDisplayOn => true
  | .cmdPageAddr _ => true
  | .cmdComScanFixed => true
  | .cmdSetDisplayOffset _ => true
  | .cmdSetDisplayClockDiv _ => true
  | .cmdSetPrecharge _ => true
  | .cmdSetComPins _ => true
  | .cmdSetVcomDetect _ => true

/-- R114: every base byte has zeros in its field bits. -/
def CmdSet.basesClear (cs : CmdSet) : Bool :=
  cs.pageAddr &&& 0x0F == 0 && cs.setLowColumn &&& 0x0F == 0 && cs.setHighColumn &&& 0x0F == 0
    && cs.setStartLine &&& 0x3F == 0

/-- R8, R232: the ranges of the construction parameters. The delay of step 1 is the only one the source implies
to be positive; delays belong to the 21 steps. -/
def Params.inRange (p : Params) : Bool :=
  decide (1 ≤ p.width) && decide (p.width ≤ 256) && decide (1 ≤ p.height) && decide (p.height ≤ 128)
    && decide (p.initDelay.length ≤ 21) && decide (0 < p.initDelay.getD 1 0) && p.cmds.basesClear

/-- R8: the configuration fits the 132-column, 8-page controller RAM. -/
def Params.wellFitted (p : Params) : Bool :=
  p.inRange && decide (p.width + p.colOffset.toNat ≤ 132)
    && decide ((p.height + 7) / 8 + p.pageOffset.toNat ≤ 8)

end Sys2Proof
end

