-- ==== Sys2Proof/Decode.lean ====
section
/-! DEFINITION. The decoder of host operation words (R91 to R98) and of controller command bytes (R110 to R113),
both total and rejecting by name, and the encoders written from the same tables. -/

namespace Sys2Proof

/-! ## Codes -/

/-- The operation codes of R92. -/
def Op.code : Op → BitVec 5
  | .presetup => 0x01
  | .init => 0x02
  | .shutdown => 0x03
  | .release => 0x04
  | .setpixel => 0x08
  | .getpixel => 0x09
  | .fill => 0x0A
  | .rdbuf => 0x0B
  | .hspan => 0x0C
  | .vspan => 0x0D
  | .lhspan => 0x0E
  | .lvspan => 0x0F
  | .flush => 0x10
  | .setpower => 0x11
  | .setinvert => 0x12
  | .setcontrast => 0x13
  | .setrotation => 0x14
  | .rawcmd => 0x15

/-- The operation an operation-code field names; every value R92 does not list is unassigned. -/
def opOfCode (code : Nat) : Option Op :=
  match code with
  | 0x01 => some .presetup
  | 0x02 => some .init
  | 0x03 => some .shutdown
  | 0x04 => some .release
  | 0x08 => some .setpixel
  | 0x09 => some .getpixel
  | 0x0A => some .fill
  | 0x0B => some .rdbuf
  | 0x0C => some .hspan
  | 0x0D => some .vspan
  | 0x0E => some .lhspan
  | 0x0F => some .lvspan
  | 0x10 => some .flush
  | 0x11 => some .setpower
  | 0x12 => some .setinvert
  | 0x13 => some .setcontrast
  | 0x14 => some .setrotation
  | 0x15 => some .rawcmd
  | _ => none

/-- The mode field (R95): 3 is reserved. -/
def modeOfBits (m : BitVec 2) : Option Mode :=
  match m.toNat with
  | 0 => some .clear
  | 1 => some .set
  | 2 => some .invert
  | _ => none

def Mode.bits : Mode → BitVec 2
  | .clear => 0
  | .set => 1
  | .invert => 2

/-- A rotation from its two-bit field (R165). -/
def rotOfBits (r : BitVec 2) : Rot :=
  match r.toNat with
  | 0 => .r0
  | 1 => .r1
  | 2 => .r2
  | _ => .r3

def Rot.bits : Rot → BitVec 2
  | .r0 => 0
  | .r1 => 1
  | .r2 => 2
  | .r3 => 3

/-! ## The fields of an operation word (R91) -/

def opField (w : Word) : BitVec 5 := w.extractLsb' 59 5
def modeField (w : Word) : BitVec 2 := w.extractLsb' 57 2
def rsvField (w : Word) : BitVec 9 := w.extractLsb' 48 9
def aField (w : Word) : BitVec 16 := w.extractLsb' 32 16
def bField (w : Word) : BitVec 16 := w.extractLsb' 16 16
def cField (w : Word) : BitVec 16 := w.extractLsb' 0 16

/-- The operation an instruction is: none for the controller's commands (R92). -/
def Instr.op : Instr → Option Op
  | .presetup => some .presetup
  | .init => some .init
  | .shutdown => some .shutdown
  | .release => some .release
  | .setpixel _ _ _ => some .setpixel
  | .getpixel _ _ => some .getpixel
  | .fill _ => some .fill
  | .rdbuf _ => some .rdbuf
  | .hspan _ _ _ _ => some .hspan
  | .vspan _ _ _ _ => some .vspan
  | .lhspan _ _ _ _ => some .lhspan
  | .lvspan _ _ _ _ => some .lvspan
  | .flush => some .flush
  | .setpower _ => some .setpower
  | .setinvert _ => some .setinvert
  | .setcontrast _ => some .setcontrast
  | .setrotation _ => some .setrotation
  | .rawcmd _ _ => some .rawcmd
  | .cmdSetLowColumn _ => none
  | .cmdSetHighColumn _ => none
  | .cmdSetStartLine _ => none
  | .cmdSetContrast _ => none
  | .cmdChargePump _ => none
  | .cmdSegRemapFixed => none
  | .cmdDisplayAllOnResume => none
  | .cmdNormalDisplay => none
  | .cmdInvertDisplay => none
  | .cmdSetMultiplex _ => none
  | .cmdDisplayOff => none
  | .cmdDisplayOn => none
  | .cmdPageAddr _ => none
  | .cmdComScanFixed => none
  | .cmdSetDisplayOffset _ => none
  | .cmdSetDisplayClockDiv _ => none
  | .cmdSetPrecharge _ => none
  | .cmdSetComPins _ => none
  | .cmdSetVcomDetect _ => none

/-- Why a word is illegal (R98). -/
inductive Reject where
  /-- The operation code is unassigned. -/
  | unassignedOp
  /-- `rsv` is not zero. -/
  | reservedNonzero
  /-- A field the format requires to be zero is not. -/
  | fieldNonzero
  /-- `mode = 3` in format M, P or S. -/
  | modeReserved
  /-- `mode` is not zero for GETPIXEL. -/
  | modeNonzero
  deriving DecidableEq, Repr

/-- Accept `i` if the fields that must be zero are. -/
def requireZero (zero : Bool) (i : Instr) : Except Reject Instr :=
  if zero then .ok i else .error .fieldNonzero

/-- Accept the instruction of a legal mode field (R95). -/
def withMode (w : Word) (f : Mode → Except Reject Instr) : Except Reject Instr :=
  match modeOfBits (modeField w) with
  | some m => f m
  | none => .error .modeReserved

/-- Format N (R93): every operand field zero. -/
def formatN (w : Word) (i : Instr) : Except Reject Instr :=
  requireZero (modeField w == 0 && aField w == 0 && bField w == 0 && cField w == 0) i

/-- Format S (R93, R94). -/
def formatS (w : Word) (f : Int → Int → Int → Mode → Instr) : Except Reject Instr :=
  withMode w fun m => .ok (f (aField w).toInt (bField w).toInt (cField w).toInt m)

/-- Format V (R93): `width` value bits in the low end of `c`, everything else zero. -/
def formatV (w : Word) (width : Nat) (i : Instr) : Except Reject Instr :=
  requireZero (modeField w == 0 && aField w == 0 && bField w == 0 && (cField w) >>> width == 0) i

/-- The argument bytes a format R word carries, first `nargs` of the three fields, and whether the fields
past them are zero (R93). -/
def rawArgs (w : Word) : List Byte × Bool :=
  let a0 := (cField w).extractLsb' 8 8
  let a1 := (bField w).extractLsb' 0 8
  let a2 := (bField w).extractLsb' 8 8
  match (modeField w).toNat with
  | 0 => ([], a0 == 0 && a1 == 0 && a2 == 0)
  | 1 => ([a0], a1 == 0 && a2 == 0)
  | 2 => ([a0, a1], a2 == 0)
  | _ => ([a0, a1, a2], true)

/-- The operands of an assigned operation's word (R93, R94). -/
def decodeOperands (w : Word) : Op → Except Reject Instr
  | .presetup => formatN w .presetup
  | .init => formatN w .init
  | .shutdown => formatN w .shutdown
  | .release => formatN w .release
  | .setpixel => withMode w fun m =>
      requireZero (cField w == 0) (.setpixel (aField w).toInt (bField w).toInt m)
  | .getpixel =>
      if modeField w == 0 then requireZero (cField w == 0) (.getpixel (aField w).toInt (bField w).toInt)
      else .error .modeNonzero
  | .fill => withMode w fun m =>
      requireZero (aField w == 0 && bField w == 0 && cField w == 0) (.fill m)
  | .rdbuf => requireZero (modeField w == 0 && aField w == 0 && bField w == 0) (.rdbuf (cField w).toNat)
  | .hspan => formatS w .hspan
  | .vspan => formatS w .vspan
  | .lhspan => formatS w .lhspan
  | .lvspan => formatS w .lvspan
  | .flush => formatN w .flush
  | .setpower => formatV w 1 (.setpower ((cField w).getLsbD 0))
  | .setinvert => formatV w 1 (.setinvert ((cField w).getLsbD 0))
  | .setcontrast => formatV w 8 (.setcontrast ((cField w).extractLsb' 0 8))
  | .setrotation => formatV w 2 (.setrotation (rotOfBits ((cField w).extractLsb' 0 2)))
  | .rawcmd => requireZero (aField w == 0 && (rawArgs w).2)
      (.rawcmd ((cField w).extractLsb' 0 8) (rawArgs w).1)

/-- Decode a host operation word: exactly one row of the table, or illegal (R98). -/
def decodeHost (w : Word) : Except Reject Instr :=
  match opOfCode (opField w).toNat with
  | none => .error .unassignedOp
  | some op => if rsvField w == 0 then decodeOperands w op else .error .reservedNonzero

/-! ## Controller command bytes -/

/-- `CMDSET_GK` (R111), from general knowledge; the charge-pump pair is of low confidence there. -/
def cmdSetGK : CmdSet where
  setLowColumn := 0x00
  setHighColumn := 0x10
  setStartLine := 0x40
  setContrast := 0x81
  chargePump := 0x8D
  argChargePumpOn := 0x14
  segRemapFixed := 0xA1
  displayAllOnResume := 0xA4
  normalDisplay := 0xA6
  invertDisplay := 0xA7
  setMultiplex := 0xA8
  displayOff := 0xAE
  displayOn := 0xAF
  pageAddr := 0xB0
  comScanFixed := 0xC8
  setDisplayOffset := 0xD3
  setDisplayClockDiv := 0xD5
  argClockDiv := 0x80
  setPrecharge := 0xD9
  setComPins := 0xDA
  setVcomDetect := 0xDB

/-- The byte of a command under a command set. -/
def CmdSet.byte (cs : CmdSet) : Cmd → Byte
  | .setLowColumn => cs.setLowColumn
  | .setHighColumn => cs.setHighColumn
  | .setStartLine => cs.setStartLine
  | .setContrast => cs.setContrast
  | .chargePump => cs.chargePump
  | .segRemapFixed => cs.segRemapFixed
  | .displayAllOnResume => cs.displayAllOnResume
  | .normalDisplay => cs.normalDisplay
  | .invertDisplay => cs.invertDisplay
  | .setMultiplex => cs.setMultiplex
  | .displayOff => cs.displayOff
  | .displayOn => cs.displayOn
  | .pageAddr => cs.pageAddr
  | .comScanFixed => cs.comScanFixed
  | .setDisplayOffset => cs.setDisplayOffset
  | .setDisplayClockDiv => cs.setDisplayClockDiv
  | .setPrecharge => cs.setPrecharge
  | .setComPins => cs.setComPins
  | .setVcomDetect => cs.setVcomDetect

/-- The field bits of a command byte (R110, R113): four for the address commands, six for the start line, none
for the others. -/
def Cmd.fieldMask : Cmd → Byte
  | .setLowColumn => 0x0F
  | .setHighColumn => 0x0F
  | .pageAddr => 0x0F
  | .setStartLine => 0x3F
  | _ => 0x00

/-- Does the command take an argument byte in the same transaction (R110)? -/
def Cmd.takesArg : Cmd → Bool
  | .setContrast => true
  | .chargePump => true
  | .setMultiplex => true
  | .setDisplayOffset => true
  | .setDisplayClockDiv => true
  | .setPrecharge => true
  | .setComPins => true
  | .setVcomDetect => true
  | _ => false

/-- Every command, in the order of R110. -/
def Cmd.all : List Cmd :=
  [.pageAddr, .setLowColumn, .setHighColumn, .displayOff, .displayOn, .displayAllOnResume, .normalDisplay,
    .invertDisplay, .setContrast, .setDisplayClockDiv, .setMultiplex, .chargePump, .segRemapFixed, .comScanFixed,
    .setDisplayOffset, .setStartLine, .setComPins, .setPrecharge, .setVcomDetect]

/-- `b` is the command's byte with some field value ORed in (R113). -/
def Cmd.matches (cs : CmdSet) (b : Byte) (c : Cmd) : Bool :=
  b &&& ~~~c.fieldMask == cs.byte c

/-- The command a byte is, under a command set; none when the set has no such byte. -/
def cmdOfByte (cs : CmdSet) (b : Byte) : Option Cmd :=
  Cmd.all.find? (Cmd.matches cs b)

/-- The instruction a command with this byte and this argument byte is. -/
def Cmd.toInstr (b arg : Byte) : Cmd → Instr
  | .setLowColumn => .cmdSetLowColumn (b.extractLsb' 0 4)
  | .setHighColumn => .cmdSetHighColumn (b.extractLsb' 0 4)
  | .setStartLine => .cmdSetStartLine (b.extractLsb' 0 6)
  | .setContrast => .cmdSetContrast arg
  | .chargePump => .cmdChargePump arg
  | .segRemapFixed => .cmdSegRemapFixed
  | .displayAllOnResume => .cmdDisplayAllOnResume
  | .normalDisplay => .cmdNormalDisplay
  | .invertDisplay => .cmdInvertDisplay
  | .setMultiplex => .cmdSetMultiplex arg
  | .displayOff => .cmdDisplayOff
  | .displayOn => .cmdDisplayOn
  | .pageAddr => .cmdPageAddr (b.extractLsb' 0 4)
  | .comScanFixed => .cmdComScanFixed
  | .setDisplayOffset => .cmdSetDisplayOffset arg
  | .setDisplayClockDiv => .cmdSetDisplayClockDiv arg
  | .setPrecharge => .cmdSetPrecharge arg
  | .setComPins => .cmdSetComPins arg
  | .setVcomDetect => .cmdSetVcomDetect arg

/-- Why a list of bytes is no controller command. -/
inductive BusReject where
  /-- There is no byte. -/
  | empty
  /-- No command of the set has this byte (R77: an "other command"). -/
  | unknownByte
  /-- The command takes an argument byte and none follows. -/
  | argumentMissing
  deriving DecidableEq, Repr

/-- Decode one controller command from a list of bytes, with the bytes left over (R100, R110). -/
def decodeBus (cs : CmdSet) : List Byte → Except BusReject (Instr × List Byte)
  | [] => .error .empty
  | b :: rest =>
    match cmdOfByte cs b with
    | none => .error .unknownByte
    | some c =>
      if c.takesArg then
        match rest with
        | [] => .error .argumentMissing
        | arg :: rest' => .ok (c.toInstr b arg, rest')
      else .ok (c.toInstr b 0, rest)

/-- The instruction of a row of the opcode table (the host's numbering: bit 0 is the first word's least
significant bit). A host operation word is one 64-bit word (R91); a controller row is its command byte, the
argument byte being bits 15..8, read under `CMDSET_GK`, whose values the table's rows hold (PRESUMED, unsafe,
log 19). -/
def decodeTableWord (nbits w : Nat) : Option Instr :=
  if nbits == 64 then
    match decodeHost (BitVec.ofNat 64 w) with
    | .ok i => some i
    | .error _ => none
  else if nbits == 8 then
    match decodeBus cmdSetGK [BitVec.ofNat 8 w, BitVec.ofNat 8 (w / 256)] with
    | .ok (i, _) => some i
    | .error _ => none
  else none

/-! ## Encoders -/

/-- An operation word from its fields, `rsv` zero (R91). -/
def hostWord (op : BitVec 5) (mode : BitVec 2) (a b c : BitVec 16) : Word :=
  op ++ mode ++ (0 : BitVec 9) ++ a ++ b ++ c

def i16 (v : Int) : BitVec 16 := BitVec.ofInt 16 v

/-- Byte `k` of an argument list, zero past its end (R93). -/
def argByte (args : List Byte) (k : Nat) : Byte := args.getD k 0

/-- The word of a format R operation (R93): `nargs` in the mode field. -/
def rawWord (cmd : Byte) (args : List Byte) : Word :=
  hostWord (Op.code .rawcmd) (BitVec.ofNat 2 args.length) 0 (argByte args 2 ++ argByte args 1)
    (argByte args 0 ++ cmd)

/-- What an instruction is written as: a host operation word, or the bytes of a bus command. -/
inductive Code where
  | host (w : Word)
  | bus (bytes : List Byte)
  deriving DecidableEq, Repr

/-- A command byte with its field, `base | field` (R113). -/
def CmdSet.withField (cs : CmdSet) (c : Cmd) (field : Byte) : Byte := cs.byte c ||| (field &&& c.fieldMask)

/-- The words of an instruction (R91 to R94, R113). -/
def encode (cs : CmdSet) : Instr → Code
  | .presetup => .host (hostWord (Op.code .presetup) 0 0 0 0)
  | .init => .host (hostWord (Op.code .init) 0 0 0 0)
  | .shutdown => .host (hostWord (Op.code .shutdown) 0 0 0 0)
  | .release => .host (hostWord (Op.code .release) 0 0 0 0)
  | .setpixel x y m => .host (hostWord (Op.code .setpixel) m.bits (i16 x) (i16 y) 0)
  | .getpixel x y => .host (hostWord (Op.code .getpixel) 0 (i16 x) (i16 y) 0)
  | .fill m => .host (hostWord (Op.code .fill) m.bits 0 0 0)
  | .rdbuf index => .host (hostWord (Op.code .rdbuf) 0 0 0 (BitVec.ofNat 16 index))
  | .hspan x y len m => .host (hostWord (Op.code .hspan) m.bits (i16 x) (i16 y) (i16 len))
  | .vspan x y len m => .host (hostWord (Op.code .vspan) m.bits (i16 x) (i16 y) (i16 len))
  | .lhspan x y len m => .host (hostWord (Op.code .lhspan) m.bits (i16 x) (i16 y) (i16 len))
  | .lvspan x y len m => .host (hostWord (Op.code .lvspan) m.bits (i16 x) (i16 y) (i16 len))
  | .flush => .host (hostWord (Op.code .flush) 0 0 0 0)
  | .setpower on => .host (hostWord (Op.code .setpower) 0 0 0 (if on then 1 else 0))
  | .setinvert inv => .host (hostWord (Op.code .setinvert) 0 0 0 (if inv then 1 else 0))
  | .setcontrast v => .host (hostWord (Op.code .setcontrast) 0 0 0 (v.zeroExtend 16))
  | .setrotation r => .host (hostWord (Op.code .setrotation) 0 0 0 (r.bits.zeroExtend 16))
  | .rawcmd cmd args => .host (rawWord cmd args)
  | .cmdSetLowColumn c => .bus [cs.withField .setLowColumn (c.zeroExtend 8)]
  | .cmdSetHighColumn c => .bus [cs.withField .setHighColumn (c.zeroExtend 8)]
  | .cmdSetStartLine l => .bus [cs.withField .setStartLine (l.zeroExtend 8)]
  | .cmdSetContrast arg => .bus [cs.setContrast, arg]
  | .cmdChargePump arg => .bus [cs.chargePump, arg]
  | .cmdSegRemapFixed => .bus [cs.segRemapFixed]
  | .cmdDisplayAllOnResume => .bus [cs.displayAllOnResume]
  | .cmdNormalDisplay => .bus [cs.normalDisplay]
  | .cmdInvertDisplay => .bus [cs.invertDisplay]
  | .cmdSetMultiplex arg => .bus [cs.setMultiplex, arg]
  | .cmdDisplayOff => .bus [cs.displayOff]
  | .cmdDisplayOn => .bus [cs.displayOn]
  | .cmdPageAddr p => .bus [cs.withField .pageAddr (p.zeroExtend 8)]
  | .cmdComScanFixed => .bus [cs.comScanFixed]
  | .cmdSetDisplayOffset arg => .bus [cs.setDisplayOffset, arg]
  | .cmdSetDisplayClockDiv arg => .bus [cs.setDisplayClockDiv, arg]
  | .cmdSetPrecharge arg => .bus [cs.setPrecharge, arg]
  | .cmdSetComPins arg => .bus [cs.setComPins, arg]
  | .cmdSetVcomDetect arg => .bus [cs.setVcomDetect, arg]

/-- Decode either kind of code; bytes left over after a bus command make it no single instruction. -/
def decode (cs : CmdSet) : Code → Option Instr
  | .host w =>
    match decodeHost w with
    | .ok i => some i
    | .error _ => none
  | .bus bytes =>
    match decodeBus cs bytes with
    | .ok (i, []) => some i
    | .ok (_, _ :: _) => none
    | .error _ => none

/-- No byte is two commands of the set: what makes command decoding unambiguous. `CMDSET_GK` has it. -/
def CmdSet.unambiguous (cs : CmdSet) : Bool :=
  decide (Cmd.all.Pairwise fun c d =>
    cs.byte c &&& ~~~c.fieldMask &&& ~~~d.fieldMask ≠ cs.byte d &&& ~~~c.fieldMask &&& ~~~d.fieldMask)

end Sys2Proof
end

