-- ==== Sys2Proof/Machine/State.lean ====
section
/-! DEFINITION. The state of the machine (10_state.md, 20_memory.md), its reset (R290, R291), and the reasons a
step can stop. Plain data throughout. -/

namespace Sys2Proof.Machine

/-- `LSTATE` (R48, R272). -/
inductive LState where
  | uninitialized
  | poweredOff
  | active
  | hardwareReleased
  deriving DecidableEq, Repr

/-- `STATUS` (R33): the completion code of the most recent operation. -/
inductive Status where
  | ok
  | transportError
  | illegal
  deriving DecidableEq, Repr

/-- `SEQ.phase` (R27): the position inside one page of a flush. -/
inductive Phase where
  | page
  | lowCol
  | highCol
  | data
  deriving DecidableEq, Repr

/-- `SEQ` (R27): `op` is none for `IDLE`. -/
structure Seq where
  op : Option Op
  step : Nat
  page : Nat
  phase : Phase
  deriving DecidableEq, Repr

/-- `IDLE` with all other fields zero (R29). -/
def Seq.idle : Seq := { op := none, step := 0, page := 0, phase := .page }

/-- The dirty-window registers `DX1`, `DY1`, `DX2`, `DY2` (R21): an inclusive rectangle in physical
coordinates, kept as exact naturals (R157; safe, log 18). -/
structure Window where
  x1 : Nat
  y1 : Nat
  x2 : Nat
  y2 : Nat
  deriving DecidableEq, Repr

/-- A byte memory: (address, byte) pairs, addresses strictly rising, no entry equal to what an unlisted address
reads as (`Memory.wf` in Machine/Ops.lean). -/
abbrev Memory := List Host.Cell

/-- The display controller downstream (R58, R74, R76, R77): its RAM of 8 pages by 132 columns (byte of page `p`,
column `c` at address `132 * p + c`), its page and column pointers, and for each of its commands the setting the
command makes (R76 (e), (f)). -/
structure Controller where
  ram : Memory
  pp : BitVec 3
  cp : BitVec 8
  displayOn : Bool
  /-- The "all-pixels-on" condition has been left: RAM contents are shown (R238). -/
  showsRam : Bool
  inverted : Bool
  contrast : Byte
  clockDiv : Byte
  multiplex : Byte
  chargePump : Byte
  segRemapSet : Bool
  comScanSet : Bool
  displayOffset : Byte
  startLine : BitVec 6
  comPins : Byte
  precharge : Byte
  vcomDetect : Byte
  deriving DecidableEq, Repr

/-- Who takes a step: FBP at its command port, or the controller at its end of the bus. -/
inductive Agent where
  | fbp
  | controller
  deriving DecidableEq, Repr

/-- The machine's state. `freeIdx`, `hostIn`, `answers`, `turns`, `wire` and `refusalMark` are the model's own
(see INVENTORY.md); everything else is named by the spec. -/
structure State where
  /-- `WIDTH` .. `STARTLINE` (R35 to R42) and the parameters fixed with them (R10, R12). -/
  par : Params
  /-- The dirty-window registers (R21). -/
  win : Window
  /-- `OPW` (R26). -/
  opw : Word
  /-- `SEQ` (R27). -/
  seq : Seq
  /-- `STATUS` (R33). -/
  status : Status
  /-- `RESULT`, the result port (R97). -/
  result : Byte
  /-- `ROT` (R43). -/
  rot : Rot
  /-- `CONTRAST` (R44). -/
  contrast : Byte
  /-- `COMPINS` (R45). -/
  compins : Byte
  /-- `MUXRATIO` (R46). -/
  muxratio : Byte
  /-- `INV` (R47). -/
  inv : Bool
  /-- `LSTATE` (R48). -/
  lstate : LState
  /-- `FB` (R53): byte `i` of the framebuffer at address `i`. -/
  fb : Memory
  /-- `TRACE` (R57), oldest event first. -/
  trace : List Event
  /-- The refusal mark of R270, kept for the whole run: a refused operation or an illegal word has been given
  to FBP. -/
  refusalMark : Bool
  /-- How many free values have been drawn; each draw applies an opaque constant of Config to it. -/
  freeIdx : Nat
  /-- The operation words HOST presents next, in order (R13, R96). -/
  hostIn : List Word
  /-- The answers TRANSPORT gives to the next transactions, in order; past their end the oracle
  `Config.transportOk` answers (R14). -/
  answers : List Answer
  /-- The transactions under way to the controller, in `TRACE` order (R81). -/
  wire : List Txn
  /-- Who moves next, in order; past its end the controller moves while the wire holds anything. -/
  turns : List Agent
  /-- The display controller (R77). -/
  ctl : Controller
  /-- The controller is "in an indeterminate hardware state" since a failed INIT (R59), and no INIT has been entered
  since (R267). -/
  ctlLost : Bool
  deriving DecidableEq, Repr

/-- Why a step stops with a fault. -/
inductive Fault where
  /-- FLUSH or INIT would read a framebuffer index outside `0..FBLEN-1`, because the dirty window reaches outside
  the panel. R22 rules such a window out of every reachable state and R66 gives such an index no meaning. Raised
  by FLUSH and INIT alone. Safe (log 16): the model stops where no hardware state corresponds. -/
  | windowOutsidePanel
  deriving DecidableEq, Repr

/-- Why a step is refused. -/
inductive Refusal where
  /-- The instruction has no meaning in the model yet. Safe. -/
  | notModelled (mnemonic : String)
  deriving DecidableEq, Repr

/-- The reset contents the spec leaves open (R291), and those of the controller (R296). -/
structure Unstated where
  fb : Memory
  rot : Rot
  inv : Bool
  contrast : Byte
  compins : Byte
  muxratio : Byte
  opw : Word
  result : Byte
  ctl : Controller
  deriving DecidableEq, Repr

/-- The state after construction with parameters `p`, for any contents `u` of what R290 leaves unspecified. -/
def State.construct (p : Params) (u : Unstated) : State where
  par := p
  win := { x1 := p.width, y1 := p.height, x2 := 0, y2 := 0 }
  opw := u.opw
  seq := Seq.idle
  status := .ok
  result := u.result
  rot := u.rot
  contrast := u.contrast
  compins := u.compins
  muxratio := u.muxratio
  inv := u.inv
  lstate := .uninitialized
  fb := u.fb
  trace := []
  refusalMark := false
  freeIdx := 0
  hostIn := []
  answers := []
  wire := []
  turns := []
  ctl := u.ctl
  ctlLost := false

/-- The construction parameters of `State.reset`: the panel of the source's end-to-end scenario (R248: width 128,
height 64, rotation 0) and the documented defaults (R7). DESIGN CHOICE (unsafe, log 1): the panel, no splash, a
1 ms delay after step 1; the command set is the spec's instance R111. -/
def Params.scenario : Params where
  width := 128
  height := 64
  cfgRotation := .r0
  noSplash := false
  colOffset := 2
  pageOffset := 0
  dispOffset := 0
  startLine := 0
  cmds := cmdSetGK
  initDelay := [0, 1]
  splash := none

/-- A controller with every setting zero. DESIGN CHOICE (unsafe, log 3): the controller's power-up contents are
unknown (R296). -/
def Controller.zero : Controller where
  ram := []
  pp := 0
  cp := 0
  displayOn := false
  showsRam := false
  inverted := false
  contrast := 0
  clockDiv := 0
  multiplex := 0
  chargePump := 0
  segRemapSet := false
  comScanSet := false
  displayOffset := 0
  startLine := 0
  comPins := 0
  precharge := 0
  vcomDetect := 0

/-- DESIGN CHOICE (unsafe, log 2): every reset value the spec leaves open is zero, the content R291 (a) advises
for `FB` and one of the allowed values of each other register. -/
def Unstated.zero : Unstated where
  fb := []
  rot := .r0
  inv := false
  contrast := 0
  compins := 0
  muxratio := 0
  opw := 0
  result := 0
  ctl := Controller.zero

/-- The machine right after reset, which is construction (R290). -/
def State.reset : State := State.construct Params.scenario Unstated.zero

end Sys2Proof.Machine
end

