-- ==== Sys2Proof/Machine/Flags.lean ====
section
/-! DEFINITION. The predicates and outputs that are not stored (R31, R32, R50), the completion codes (R33), and
the legality table (R271). There are no arithmetic condition codes (R34). -/

namespace Sys2Proof.Machine

/-- `IsEmpty()` (R153), the predicate `EMPTY` of R31: `DX1 > DX2`. -/
def isEmpty (s : State) : Bool := decide (s.win.x2 < s.win.x1)

/-- `BUSY` (R32): `SEQ.op` is not `IDLE`. -/
def busy (s : State) : Bool := s.seq.op.isSome

/-- The output `LW` (R50, R161). -/
def logicalWidth (s : State) : Nat :=
  match s.rot with
  | .r0 => s.par.width
  | .r1 => s.par.height
  | .r2 => s.par.width
  | .r3 => s.par.height

/-- The output `LH` (R50, R161). -/
def logicalHeight (s : State) : Nat :=
  match s.rot with
  | .r0 => s.par.height
  | .r1 => s.par.width
  | .r2 => s.par.height
  | .r3 => s.par.width

/-- `PAGES` (R9). -/
def pages (s : State) : Nat := (s.par.height + 7) / 8

/-- `FBLEN` (R9). -/
def fblen (s : State) : Nat := s.par.width * pages s

/-- The codes of `STATUS` (R33). -/
def statusCode : Status → BitVec 2
  | .ok => 0
  | .transportError => 1
  | .illegal => 2

/-- The codes of `LSTATE` (R48). -/
def lstateCode : LState → BitVec 2
  | .uninitialized => 0
  | .poweredOff => 1
  | .active => 2
  | .hardwareReleased => 3

/-- The code of `SEQ.op` (R27): `IDLE` is 0, otherwise the operation code. -/
def seqCode (q : Seq) : BitVec 5 :=
  match q.op with
  | none => 0
  | some op => op.code

/-- Buffer operations: legal everywhere but in `HardwareReleased` (R271). -/
def legalBuffer : LState → Bool
  | .uninitialized => true
  | .poweredOff => true
  | .active => true
  | .hardwareReleased => false

/-- Bus operations: legal in `PoweredOff` and `Active` (R201, R271). -/
def legalBus : LState → Bool
  | .uninitialized => false
  | .poweredOff => true
  | .active => true
  | .hardwareReleased => false

/-- Which operation is legal in which lifecycle state (R271). -/
def legal (op : Op) (l : LState) : Bool :=
  match op with
  | .presetup => l == .uninitialized
  | .init => legalBuffer l
  | .shutdown => legalBus l
  | .release => l == .poweredOff
  | .setpixel => legalBuffer l
  | .getpixel => legalBuffer l
  | .fill => legalBuffer l
  | .rdbuf => legalBuffer l
  | .hspan => legalBuffer l
  | .vspan => legalBuffer l
  | .lhspan => legalBuffer l
  | .lvspan => legalBuffer l
  | .setrotation => legalBuffer l
  | .flush => legalBus l
  | .setpower => legalBus l
  | .setinvert => legalBus l
  | .setcontrast => legalBus l
  | .rawcmd => legalBus l

end Sys2Proof.Machine
end

