-- ==== Sys2Proof/Machine/Operands.lean ====
section
/-! DEFINITION. The operand forms: pixel addressing (R130), the rotation transform of points and spans (R162,
R170), clipping (R181, R186), and the bytes of field commands (R113, R204, R205). Coordinates are exact integers
(R17, R177). -/

namespace Sys2Proof.Machine

/-- The index of `PixelAddr(px, py)` (R130) in a framebuffer `w` columns wide. -/
def pixelIndex (w px py : Nat) : Nat := px + py / 8 * w

/-- The mask of `PixelAddr(px, py)` (R130): bit `py & 7` alone. -/
def pixelMask (py : Nat) : Byte := 1 <<< (py % 8)

/-- `Xform(r, x, y)` (R162) on a panel `w` by `h`. -/
def xform (w h : Nat) (r : Rot) (x y : Int) : Int × Int :=
  match r with
  | .r0 => (x, y)
  | .r1 => (w - 1 - y, x)
  | .r2 => (w - 1 - x, h - 1 - y)
  | .r3 => (y, h - 1 - x)

/-- A run of `len` pixels from (`x`, `y`) along `dir` (R170). -/
structure Span where
  dir : Dir
  x : Int
  y : Int
  len : Int
  deriving DecidableEq, Repr

/-- `XformSpan(r, dir, x, y, L)` (R170): the physical span covering the images of the logical span's pixels. -/
def xformSpan (w h : Nat) (r : Rot) (sp : Span) : Span :=
  match r, sp.dir with
  | .r0, _ => sp
  | .r1, .horizontal => { dir := .vertical, x := w - 1 - sp.y, y := sp.x, len := sp.len }
  | .r1, .vertical => { dir := .horizontal, x := w - 1 - sp.y - (sp.len - 1), y := sp.x, len := sp.len }
  | .r2, .horizontal => { sp with x := w - 1 - sp.x - (sp.len - 1), y := h - 1 - sp.y }
  | .r2, .vertical => { sp with x := w - 1 - sp.x, y := h - 1 - sp.y - (sp.len - 1) }
  | .r3, .horizontal => { dir := .vertical, x := sp.y, y := h - 1 - sp.x - (sp.len - 1), len := sp.len }
  | .r3, .vertical => { dir := .horizontal, x := sp.y, y := h - 1 - sp.x, len := sp.len }

/-- The clipping shared by R181 and R186, along the axis the run takes: a negative start trims the length and
clamps to 0, an overhanging end trims the length, and a run of length zero or less is nothing. Answers the
clipped start and length. -/
def clipRun (bound : Nat) (start len : Int) : Option (Nat × Nat) :=
  let start' := if start < 0 then 0 else start
  let len' := if start < 0 then len + start else len
  let len'' := if start' + len' > bound then bound - start' else len'
  if len'' ≤ 0 then none else some (start'.toNat, len''.toNat)

/-- `HClip(x, y, L)` (R181): the row, the clipped first column and the clipped length. -/
def hClip (w h : Nat) (x y len : Int) : Option (Nat × Nat × Nat) :=
  if y < 0 ∨ y ≥ h then none
  else (clipRun w x len).map fun c => (c.1, y.toNat, c.2)

/-- `VClip(x, y, L)` (R186): the column, the clipped first row and the clipped length. -/
def vClip (w h : Nat) (x y len : Int) : Option (Nat × Nat × Nat) :=
  if x < 0 ∨ x ≥ w then none
  else (clipRun h y len).map fun c => (x.toNat, c.1, c.2)

/-- The page-select byte of framebuffer page `p` (R204). -/
def pageByte (p : Params) (page : Nat) : Byte :=
  p.cmds.withField .pageAddr (BitVec.ofNat 8 (page + p.pageOffset.toNat))

/-- The column a flush of a window starting at `x1` sends (R205): `(DX1 + COLOFFSET) & 0xFF`. -/
def flushColumn (p : Params) (x1 : Nat) : Byte := BitVec.ofNat 8 (x1 + p.colOffset.toNat)

/-- The low-column byte (R205). -/
def lowColumnByte (p : Params) (col : Byte) : Byte := p.cmds.withField .setLowColumn col

/-- The high-column byte (R205): the upper nibble of the column. -/
def highColumnByte (p : Params) (col : Byte) : Byte := p.cmds.withField .setHighColumn (col >>> 4)

/-- The start-line byte (R113, R231 step 8): a six-bit field. -/
def startLineByte (p : Params) : Byte := p.cmds.withField .setStartLine p.startLine

/-- `PROFILE(WIDTH, HEIGHT)` (R11, R236): the source's one point, and any value elsewhere. -/
def profile (w h : Nat) : Byte × Byte := if w = 128 ∧ h = 64 then (0x12, 0x8F) else Config.profileOther w h

end Sys2Proof.Machine
end

