-- ==== Sys2Proof/Machine/Ops.lean ====
section
/-! DEFINITION. The named operations over memory and registers: byte memories, the mask tables and `Apply` (R19,
R54), the dirty window (R151, R152), the bus primitives (R200), raising TransportError (R264), and the running of
one operation (R28, R33, R268). -/

namespace Sys2Proof.Machine

/-! ## Byte memories -/

/-- What an address that no entry lists reads as. DESIGN CHOICE (unsafe, log 2): zero, the content R291 (a)
advises for a framebuffer nothing has written. -/
def Memory.unlisted : Byte := 0

/-- The canonical form: addresses strictly rising, no entry equal to what an unlisted address reads as. -/
abbrev Memory.wf (m : Memory) : Prop :=
  m.Pairwise (fun a b => a.1 < b.1) ∧ ∀ c ∈ m, c.2 ≠ Memory.unlisted

/-- Read one byte. -/
def Memory.read (m : Memory) (a : Nat) : Byte :=
  match m with
  | [] => Memory.unlisted
  | c :: rest => if c.1 = a then c.2 else Memory.read rest a

/-- An entry for `v` at `a`, in front of `m`: nothing when `v` is what an unlisted address reads as. -/
def Memory.entry (a : Nat) (v : Byte) (m : Memory) : Memory := if v = Memory.unlisted then m else (a, v) :: m

/-- Write one byte, keeping the canonical form. -/
def Memory.write (m : Memory) (a : Nat) (v : Byte) : Memory :=
  match m with
  | [] => Memory.entry a v []
  | c :: rest =>
    if c.1 < a then c :: Memory.write rest a v
    else if c.1 = a then Memory.entry a v rest
    else Memory.entry a v (c :: rest)

/-- Write `v` to every address below `n`: the loop of R135 in one piece. -/
def Memory.fill (m : Memory) (n : Nat) (v : Byte) : Memory :=
  (if v = Memory.unlisted then [] else (List.range n).map fun a => (a, v)) ++ m.filter fun c => decide (n ≤ c.1)

/-! ## Bytes under a mask -/

/-- The lower-mask table (R54): the low `n` bits. -/
def maskLower : List Byte := [0x00, 0x01, 0x03, 0x07, 0x0F, 0x1F, 0x3F, 0x7F]

/-- The upper-mask table (R54): the top `n` bits. -/
def maskUpper : List Byte := [0x00, 0x80, 0xC0, 0xE0, 0xF0, 0xF8, 0xFC, 0xFE]

def lower (n : Nat) : Byte := maskLower.getD n 0
def upper (n : Nat) : Byte := maskUpper.getD n 0

/-- `Apply(mode, b, m)` (R19). -/
def applyMode (mode : Mode) (b m : Byte) : Byte :=
  match mode with
  | .set => b ||| m
  | .clear => b &&& ~~~m
  | .invert => b ^^^ m

/-- Read-modify-write of one byte under a mask. -/
def Memory.modify (mem : Memory) (mode : Mode) (a : Nat) (m : Byte) : Memory :=
  mem.write a (applyMode mode (mem.read a) m)

/-! ## The dirty window -/

/-- `Expand(x1, y1, x2, y2)` (R151). -/
def expand (x1 y1 x2 y2 : Nat) (s : State) : State :=
  { s with win := { x1 := min s.win.x1 x1, y1 := min s.win.y1 y1, x2 := max s.win.x2 x2, y2 := max s.win.y2 y2 } }

/-- `DirtyReset()` (R152). -/
def dirtyReset (s : State) : State :=
  { s with win := { x1 := s.par.width, y1 := s.par.height, x2 := 0, y2 := 0 } }

/-- The window's far corner lies on the panel, so every framebuffer index of a flush exists (R66, R203). -/
def windowFits (s : State) : Bool := decide (s.win.x2 < s.par.width) && decide (s.win.y2 < s.par.height)

/-! ## The controller of which nothing is known -/

/-- A controller of which nothing is known, for the free values of draw `n`. -/
def Controller.indeterminate (n : Nat) : Controller where
  ram := (List.range 1056).foldl (fun m a => m.write a (Config.freeController n a)) []
  pp := (Config.freeController n 1056).extractLsb' 0 3
  cp := Config.freeController n 1057
  displayOn := (Config.freeController n 1058).getLsbD 0
  showsRam := (Config.freeController n 1059).getLsbD 0
  inverted := (Config.freeController n 1060).getLsbD 0
  contrast := Config.freeController n 1061
  clockDiv := Config.freeController n 1062
  multiplex := Config.freeController n 1063
  chargePump := Config.freeController n 1064
  segRemapSet := (Config.freeController n 1065).getLsbD 0
  comScanSet := (Config.freeController n 1066).getLsbD 0
  displayOffset := Config.freeController n 1067
  startLine := (Config.freeController n 1068).extractLsb' 0 6
  comPins := Config.freeController n 1069
  precharge := Config.freeController n 1070
  vcomDetect := Config.freeController n 1071

/-- The controller after what the spec calls indeterminate (R59, R267): free values (log 8). -/
def forgetController (s : State) : State :=
  { s with ctl := Controller.indeterminate s.freeIdx, freeIdx := s.freeIdx + 1 }

/-! ## Completion, refusal, the error -/

/-- `RESULT` becomes unspecified (R97): a fresh free value. -/
def freeResult (s : State) : State := { s with result := Config.freeResult s.freeIdx, freeIdx := s.freeIdx + 1 }

/-- Accepting an operation (R28): `SEQ.op` is its code, the other fields zero. -/
def begin (op : Op) (s : State) : State := { s with seq := { Seq.idle with op := some op } }

/-- The last micro-step completes (R28, R33): `STATUS <- OK`, `SEQ <- IDLE`. -/
def complete (s : State) : State := { s with status := .ok, seq := Seq.idle }

/-- `raise TransportError` (R264): the one exception, shared by every operation. No state is saved and no mode
changes. Control returns to HOST with `BUSY` low, so there is no return operation either (R267). -/
def raiseTransportError (s : State) : State := { s with status := .transportError, seq := Seq.idle }

/-- An illegal word or a refused operation (R98, R136, R138, R270): no state change and no bus traffic,
`STATUS <- ILLEGAL`, and the refusal mark kept for the whole run. DESIGN CHOICE (unsafe, log 4): the run goes on as
R270 says hardware built to the spec does, marked. -/
def refuse (s : State) : State :=
  freeResult { s with status := .illegal, seq := Seq.idle, refusalMark := true }

/-- What a sequence of micro-steps comes to: done, aborted by TransportError, or refused by an
operation-specific check (R268). -/
inductive Flow where
  | done (s : State)
  | raised (s : State)
  | illegal (s : State)
  deriving DecidableEq, Repr

/-- Go on with `f` unless the sequence has ended (R264: no micro-step after the failing transaction). -/
def Flow.bind (r : Flow) (f : State → Flow) : Flow :=
  match r with
  | .done s => f s
  | .raised s => .raised s
  | .illegal s => .illegal s

/-- What else an abort of the sequence leaves behind. -/
def Flow.onRaised (r : Flow) (f : State → State) : Flow :=
  match r with
  | .done s => .done s
  | .raised s => .raised (f s)
  | .illegal s => .illegal s

/-- The end of an operation that has no result of its own. -/
def finish (r : Flow) : State :=
  match r with
  | .done s => freeResult (complete s)
  | .raised s => freeResult s
  | .illegal s => refuse s

/-- Run an operation with the checks of R268: lifecycle legality first, then its body. -/
def runOp (op : Op) (body : State → Flow) (s : State) : State :=
  if legal op s.lstate then finish (body (begin op s)) else refuse s

/-- Run an operation that reads: its value goes to `RESULT` and nothing else changes (R71, R97), or it is
refused. -/
def runRead (op : Op) (value : State → Option Byte) (s : State) : State :=
  if legal op s.lstate then
    match value s with
    | some v => complete { s with result := v }
    | none => refuse s
  else refuse s

/-! ## The bus -/

/-- TRANSPORT's answer to the transaction asked for now (R14). -/
def answerOf (s : State) (t : Txn) : Answer :=
  match s.answers with
  | a :: _ => a
  | [] => if Config.transportOk s.trace t then .ok else .fail

/-- The first `k` bytes of a transaction, as what reached the controller of a failed one (R200). -/
def Txn.delivered (t : Txn) (k : Nat) : List Txn :=
  match k, t with
  | 0, _ => []
  | k + 1, .cmd c args => [.cmd c (args.take k)]
  | k + 1, .data bytes => [.data (bytes.take (k + 1))]

/-- An answered transaction, recorded in `TRACE` and, where it succeeded, on its way to the controller. -/
def recordOk (t : Txn) (s : State) : State :=
  { s with trace := s.trace ++ [.bus t .ok], answers := s.answers.tail, wire := s.wire ++ [t] }

/-- A failed transaction, recorded in `TRACE`; how much of it is on its way is a free value (R200, D29). -/
def recordFail (t : Txn) (s : State) : State :=
  { s with
    trace := s.trace ++ [.bus t .fail]
    answers := s.answers.tail
    wire := s.wire ++ Txn.delivered t (Config.freeDelivered s.freeIdx)
    freeIdx := s.freeIdx + 1 }

/-- One transaction (R200): ask, record, and raise TransportError if the answer is `fail`. -/
def busSend (t : Txn) (s : State) : Flow :=
  match answerOf s t with
  | .ok => .done (recordOk t s)
  | .fail => .raised (raiseTransportError (recordFail t s))

/-- `BusCmd(c, args)` (R18). -/
def busCmd (c : Byte) (args : List Byte) (s : State) : Flow := busSend (.cmd c args) s

/-- `BusData(bytes)` (R18). -/
def busData (bytes : List Byte) (s : State) : Flow := busSend (.data bytes) s

/-- `Delay(ms)` (R16, R277): recorded, untimed (log 17); a delay of 0 leaves no event (R232). -/
def delay (ms : Nat) (s : State) : State := if ms = 0 then s else { s with trace := s.trace ++ [.delay ms] }

end Sys2Proof.Machine
end

