-- ==== Sys2Proof/Machine/ControllerCmd.lean ====
section
/-! DEFINITION. The display controller at the far end of the bus: the commands FBP emits, as instructions of the
controller, and its data bytes. The page and column pointers and the RAM follow the reference consumer of R77
(general knowledge in the spec, log 5); the settings follow the commands' names in R76 (e), (f), R110 and R231
(DEDUCED, unsafe, log 6). No command changes anything of FBP (R58). -/

namespace Sys2Proof.Machine

/-- The columns of one RAM page (R74). -/
def ramColumns : Nat := 132

/-- The address of column `col` of page `page` in `Controller.ram`. -/
def ramIndex (page col : Nat) : Nat := page * ramColumns + col

/-- One data byte (R77): stored at the pointers, the column pointer moving on; dropped past column 131. -/
def storeByte (c : Controller) (b : Byte) : Controller :=
  if c.cp.toNat < ramColumns then
    { c with ram := c.ram.write (ramIndex c.pp.toNat c.cp.toNat) b, cp := c.cp + 1 }
  else c

/-- A data burst (R77, R78). -/
def storeBurst (bytes : List Byte) (c : Controller) : Controller := bytes.foldl storeByte c

/-- The controller after a change of its own state. -/
def withController (f : Controller → Controller) (s : State) : State := { s with ctl := f s.ctl }

/-- CMD_PAGEADDR (R77): `PP <- f & 7`. -/
def execCmdPageAddr (p : BitVec 4) (s : State) : Host.Outcome State Fault Refusal :=
  .next (withController (fun c => { c with pp := p.extractLsb' 0 3 }) s)

/-- CMD_SETLOWCOLUMN (R77): `CP <- (CP & 0xF0) | f`. -/
def execCmdSetLowColumn (f : BitVec 4) (s : State) : Host.Outcome State Fault Refusal :=
  .next (withController (fun c => { c with cp := (c.cp &&& 0xF0) ||| f.zeroExtend 8 }) s)

/-- CMD_SETHIGHCOLUMN (R77): `CP <- (f << 4) | (CP & 0x0F)`. -/
def execCmdSetHighColumn (f : BitVec 4) (s : State) : Host.Outcome State Fault Refusal :=
  .next (withController (fun c => { c with cp := (f.zeroExtend 8 <<< 4) ||| (c.cp &&& 0x0F) }) s)

/-- CMD_SETSTARTLINE: the display start line (R237). -/
def execCmdSetStartLine (l : BitVec 6) (s : State) : Host.Outcome State Fault Refusal :=
  .next (withController (fun c => { c with startLine := l }) s)

/-- CMD_SETCONTRAST: the contrast setting (R212). -/
def execCmdSetContrast (arg : Byte) (s : State) : Host.Outcome State Fault Refusal :=
  .next (withController (fun c => { c with contrast := arg }) s)

/-- CMD_CHARGEPUMP: the charge-pump setting (R231 step 4). -/
def execCmdChargePump (arg : Byte) (s : State) : Host.Outcome State Fault Refusal :=
  .next (withController (fun c => { c with chargePump := arg }) s)

/-- CMD_SETMULTIPLEX: the multiplex ratio (R234). -/
def execCmdSetMultiplex (arg : Byte) (s : State) : Host.Outcome State Fault Refusal :=
  .next (withController (fun c => { c with multiplex := arg }) s)

/-- CMD_SETDISPLAYOFFSET: the display offset (R237). -/
def execCmdSetDisplayOffset (arg : Byte) (s : State) : Host.Outcome State Fault Refusal :=
  .next (withController (fun c => { c with displayOffset := arg }) s)

/-- CMD_SETDISPLAYCLOCKDIV: the clock divider (R231 step 2). -/
def execCmdSetDisplayClockDiv (arg : Byte) (s : State) : Host.Outcome State Fault Refusal :=
  .next (withController (fun c => { c with clockDiv := arg }) s)

/-- CMD_SETPRECHARGE: the precharge period (R231 step 11). -/
def execCmdSetPrecharge (arg : Byte) (s : State) : Host.Outcome State Fault Refusal :=
  .next (withController (fun c => { c with precharge := arg }) s)

/-- CMD_SETCOMPINS: the COM-pin configuration (R236). -/
def execCmdSetComPins (arg : Byte) (s : State) : Host.Outcome State Fault Refusal :=
  .next (withController (fun c => { c with comPins := arg }) s)

/-- CMD_SETVCOMDETECT: the VCOM-detect level (R231 step 12). -/
def execCmdSetVcomDetect (arg : Byte) (s : State) : Host.Outcome State Fault Refusal :=
  .next (withController (fun c => { c with vcomDetect := arg }) s)

/-- CMD_SEGREMAP_FIXED: the fixed segment-remap polarity (R231 step 5). -/
def execCmdSegRemapFixed (s : State) : Host.Outcome State Fault Refusal :=
  .next (withController (fun c => { c with segRemapSet := true }) s)

/-- CMD_COMSCAN_FIXED: the fixed COM-scan direction (R231 step 6). -/
def execCmdComScanFixed (s : State) : Host.Outcome State Fault Refusal :=
  .next (withController (fun c => { c with comScanSet := true }) s)

/-- CMD_DISPLAYALLON_RESUME: RAM contents shown, "all-pixels-on" left (R238). -/
def execCmdDisplayAllOnResume (s : State) : Host.Outcome State Fault Refusal :=
  .next (withController (fun c => { c with showsRam := true }) s)

/-- CMD_NORMALDISPLAY: normal polarity (R211, R238). -/
def execCmdNormalDisplay (s : State) : Host.Outcome State Fault Refusal :=
  .next (withController (fun c => { c with inverted := false }) s)

/-- CMD_INVERTDISPLAY: inverted polarity (R211). -/
def execCmdInvertDisplay (s : State) : Host.Outcome State Fault Refusal :=
  .next (withController (fun c => { c with inverted := true }) s)

/-- CMD_DISPLAYOFF: display off (R210). -/
def execCmdDisplayOff (s : State) : Host.Outcome State Fault Refusal :=
  .next (withController (fun c => { c with displayOn := false }) s)

/-- CMD_DISPLAYON: display on (R210). -/
def execCmdDisplayOn (s : State) : Host.Outcome State Fault Refusal :=
  .next (withController (fun c => { c with displayOn := true }) s)

end Sys2Proof.Machine
end

