-- ==== Sys2Proof/Machine/Framebuffer.lean ====
section
/-! DEFINITION. The bit-packed framebuffer operations: SETPIXEL, GETPIXEL, FILL, RDBUF (40_framebuffer.md). -/

namespace Sys2Proof.Machine

/-- The bounds test of R131 and R133, on the logical dimensions. -/
def inLogical (s : State) (x y : Int) : Bool :=
  decide (0 ≤ x) && decide (x < logicalWidth s) && decide (0 ≤ y) && decide (y < logicalHeight s)

/-- Write one physical pixel of a framebuffer `w` columns wide. -/
def writePixel (w : Nat) (mode : Mode) (px py : Nat) (m : Memory) : Memory :=
  m.modify mode (pixelIndex w px py) (pixelMask py)

/-- The physical pixel a logical point is (R162), for a point within the logical bounds. -/
def physical (s : State) (x y : Int) : Nat × Nat :=
  let p := xform s.par.width s.par.height s.rot x y
  (p.1.toNat, p.2.toNat)

/-- The procedure of SETPIXEL (R131): nothing out of bounds, else one bit and the window. -/
def setPixel (x y : Int) (mode : Mode) (s : State) : State :=
  if inLogical s x y then
    let p := physical s x y
    expand p.1 p.2 p.1 p.2 { s with fb := writePixel s.par.width mode p.1 p.2 s.fb }
  else s

/-- Is physical pixel (`px`, `py`) on (R60)? -/
def pixelOn (w px py : Nat) (m : Memory) : Bool := (m.read (pixelIndex w px py)) &&& pixelMask py != 0

/-- The value of GETPIXEL (R133): 0 out of bounds. -/
def getPixel (x y : Int) (s : State) : Byte :=
  if inLogical s x y then
    let p := physical s x y
    if pixelOn s.par.width p.1 p.2 s.fb then 1 else 0
  else 0

/-- `FILL` with a byte: every byte of the framebuffer and the whole panel dirty (R135). -/
def fillWith (v : Byte) (s : State) : State :=
  expand 0 0 (s.par.width - 1) (s.par.height - 1) { s with fb := s.fb.fill (fblen s) v }

/-- The procedure of FILL (R135, R136): INVERT is refused. -/
def fillProc (mode : Mode) (s : State) : Flow :=
  match mode with
  | .set => .done (fillWith 0xFF s)
  | .clear => .done (fillWith 0x00 s)
  | .invert => .illegal s

/-- The value of RDBUF (R137), none outside the buffer (R138). -/
def readBuffer (index : Nat) (s : State) : Option Byte :=
  if index < fblen s then some (s.fb.read index) else none

/-- SETPIXEL x, y, mode (R131). -/
def execSetpixel (x y : Int) (mode : Mode) (s : State) : Host.Outcome State Fault Refusal :=
  .next (runOp .setpixel (fun t => .done (setPixel x y mode t)) s)

/-- GETPIXEL x, y (R133). -/
def execGetpixel (x y : Int) (s : State) : Host.Outcome State Fault Refusal :=
  .next (runRead .getpixel (fun t => some (getPixel x y t)) s)

/-- FILL mode (R135, R136). -/
def execFill (mode : Mode) (s : State) : Host.Outcome State Fault Refusal := .next (runOp .fill (fillProc mode) s)

/-- RDBUF index (R137, R138). -/
def execRdbuf (index : Nat) (s : State) : Host.Outcome State Fault Refusal :=
  .next (runRead .rdbuf (readBuffer index) s)

end Sys2Proof.Machine
end

