-- ==== Sys2Proof/Machine/SpanWriter.lean ====
section
/-! DEFINITION. The span writer: HSPAN and VSPAN, in physical coordinates (43_span_writer.md). -/

namespace Sys2Proof.Machine

/-- The horizontal write (R180, R182): one bit of `len` consecutive bytes. -/
def hWrite (w : Nat) (mode : Mode) (x y len : Nat) (m : Memory) : Memory :=
  (List.range len).foldl (fun mem i => mem.modify mode (pixelIndex w (x + i) y) (pixelMask y)) m

/-- One whole byte of a vertical write (R188): written directly, or inverted. -/
def wholeByte (mode : Mode) (i : Nat) (m : Memory) : Memory :=
  match mode with
  | .set => m.write i 0xFF
  | .clear => m.write i 0x00
  | .invert => m.write i (m.read i ^^^ 0xFF)

/-- `n` whole bytes, a page apart (R188's loop). -/
def wholeBytes (w : Nat) (mode : Mode) (n i : Nat) (m : Memory) : Memory :=
  match n with
  | 0 => m
  | n + 1 => wholeBytes w mode n (i + w) (wholeByte mode i m)

/-- The aligned rest of a vertical write (R188): whole bytes, then a partial trailing byte. -/
def vWriteAligned (w : Nat) (mode : Mode) (i rem : Nat) (m : Memory) : Memory :=
  let m' := wholeBytes w mode (rem / 8) i m
  if rem % 8 = 0 then m' else m'.modify mode (i + rem / 8 * w) (lower (rem % 8))

/-- The leading mask of R188: rows `k` to the end of the byte, narrowed when the span ends inside it. -/
def leadingMask (k len : Nat) : Byte :=
  if len < 8 - k then upper (8 - k) &&& lower (k + len) else upper (8 - k)

/-- `VWrite` (R188): the three-region algorithm. -/
def vWrite (w : Nat) (mode : Mode) (x y len : Nat) (m : Memory) : Memory :=
  let i := pixelIndex w x y
  let k := y % 8
  if k = 0 then vWriteAligned w mode i len m
  else vWriteAligned w mode (i + w) (len - min len (8 - k)) (m.modify mode i (leadingMask k len))

/-- `HSpanPhys(x, y, L, mode)` (R180). -/
def hSpanPhys (x y len : Int) (mode : Mode) (s : State) : State :=
  match hClip s.par.width s.par.height x y len with
  | none => s
  | some (x', y', len') =>
    expand x' y' (x' + len' - 1) y' { s with fb := hWrite s.par.width mode x' y' len' s.fb }

/-- `VSpanPhys(x, y, L, mode)` (R185). -/
def vSpanPhys (x y len : Int) (mode : Mode) (s : State) : State :=
  match vClip s.par.width s.par.height x y len with
  | none => s
  | some (x', y', len') =>
    expand x' y' x' (y' + len' - 1) { s with fb := vWrite s.par.width mode x' y' len' s.fb }

/-- HSPAN x, y, len, mode (R180). -/
def execHspan (x y len : Int) (mode : Mode) (s : State) : Host.Outcome State Fault Refusal :=
  .next (runOp .hspan (fun t => .done (hSpanPhys x y len mode t)) s)

/-- VSPAN x, y, len, mode (R185). -/
def execVspan (x y len : Int) (mode : Mode) (s : State) : Host.Outcome State Fault Refusal :=
  .next (runOp .vspan (fun t => .done (vSpanPhys x y len mode t)) s)

end Sys2Proof.Machine
end

