-- ==== Sys2Proof/Machine/Geometry.lean ====
section
/-! DEFINITION. The geometry operations: SETROTATION, LHSPAN, LVSPAN (42_geometry.md). -/

namespace Sys2Proof.Machine

/-- Write a physical span with the writer its direction calls for (R171, R172). -/
def writeSpan (sp : Span) (mode : Mode) (s : State) : State :=
  match sp.dir with
  | .horizontal => hSpanPhys sp.x sp.y sp.len mode s
  | .vertical => vSpanPhys sp.x sp.y sp.len mode s

/-- A logical span (R171, R172): nothing for a length of zero or less, else transformed and written; clipping
comes last, in physical coordinates (R176). -/
def logicalSpan (dir : Dir) (x y len : Int) (mode : Mode) (s : State) : State :=
  if len ≤ 0 then s
  else writeSpan (xformSpan s.par.width s.par.height s.rot { dir := dir, x := x, y := y, len := len }) mode s

/-- SETROTATION r (R165). -/
def execSetrotation (r : Rot) (s : State) : Host.Outcome State Fault Refusal :=
  .next (runOp .setrotation (fun t => .done { t with rot := r }) s)

/-- LHSPAN x, y, len, mode (R171). -/
def execLhspan (x y len : Int) (mode : Mode) (s : State) : Host.Outcome State Fault Refusal :=
  .next (runOp .lhspan (fun t => .done (logicalSpan .horizontal x y len mode t)) s)

/-- LVSPAN x, y, len, mode (R172). -/
def execLvspan (x y len : Int) (mode : Mode) (s : State) : Host.Outcome State Fault Refusal :=
  .next (runOp .lvspan (fun t => .done (logicalSpan .vertical x y len mode t)) s)

end Sys2Proof.Machine
end

