-- ==== Sys2Proof/Machine/Protocol.lean ====
section
/-! DEFINITION. The controller protocol driver: FLUSH, SETPOWER, SETINVERT, SETCONTRAST, RAWCMD
(44_protocol.md). -/

namespace Sys2Proof.Machine

/-- The pages of a flush (R203), ascending. -/
def flushPages (s : State) : List Nat :=
  (List.range (s.win.y2 / 8 + 1 - s.win.y1 / 8)).map fun k => s.win.y1 / 8 + k

/-- The data burst of page `p` (R63, R206): the window's columns, ascending. -/
def burst (s : State) (p : Nat) : List Byte :=
  (List.range (s.win.x2 + 1 - s.win.x1)).map fun k => s.fb.read (s.win.x1 + k + p * s.par.width)

/-- `SEQ.phase <- ph` (R206). -/
def setPhase (ph : Phase) (s : State) : State := { s with seq := { s.seq with phase := ph } }

/-- `SEQ.page <- p` (R206). -/
def setPage (p : Nat) (s : State) : State := { s with seq := { s.seq with page := p } }

/-- One page of a flush (R206): page select, low column, high column, data burst. -/
def flushPage (p : Nat) (s : State) : Flow :=
  (busCmd (pageByte s.par p) [] (setPhase .page (setPage p s))).bind fun s =>
  (busCmd (lowColumnByte s.par (flushColumn s.par s.win.x1)) [] (setPhase .lowCol s)).bind fun s =>
  (busCmd (highColumnByte s.par (flushColumn s.par s.win.x1)) [] (setPhase .highCol s)).bind fun s =>
  busData (burst s p) (setPhase .data s)

/-- The page loop of a flush (R206). -/
def flushLoop (ps : List Nat) (s : State) : Flow :=
  match ps with
  | [] => .done s
  | p :: rest => (flushPage p s).bind (flushLoop rest)

/-- The procedure of FLUSH (R202, R206, R208): nothing for an empty window; the window is reset only after every
page was sent. -/
def flushProc (s : State) : Flow :=
  if isEmpty s then .done s else (flushLoop (flushPages s) s).bind fun s => .done (dirtyReset s)

/-- A FLUSH about to read framebuffer indices that do not exist (R66 and R22 rule it out). -/
def flushLeavesPanel (s : State) : Bool := legal .flush s.lstate && !isEmpty s && !windowFits s

/-- The procedure of SETPOWER (R210). -/
def powerProc (on : Bool) (s : State) : Flow :=
  if on then
    (busCmd s.par.cmds.displayAllOnResume [] s).bind fun s => busCmd s.par.cmds.displayOn [] s
  else busCmd s.par.cmds.displayOff [] s

/-- The procedure of SETINVERT (R211): the shadow is written first and kept even if the command fails. -/
def invertProc (inv : Bool) (s : State) : Flow :=
  busCmd (if inv then s.par.cmds.invertDisplay else s.par.cmds.normalDisplay) [] { s with inv := inv }

/-- The procedure of SETCONTRAST (R212): store, then send the stored byte. -/
def contrastProc (value : Byte) (s : State) : Flow :=
  busCmd s.par.cmds.setContrast [value] { s with contrast := value }

/-- FLUSH (R206). -/
def execFlush (s : State) : Host.Outcome State Fault Refusal :=
  if flushLeavesPanel s then .fault .windowOutsidePanel else .next (runOp .flush flushProc s)

/-- SETPOWER on (R210). -/
def execSetpower (on : Bool) (s : State) : Host.Outcome State Fault Refusal := .next (runOp .setpower (powerProc on) s)

/-- SETINVERT inv (R211). -/
def execSetinvert (inv : Bool) (s : State) : Host.Outcome State Fault Refusal :=
  .next (runOp .setinvert (invertProc inv) s)

/-- SETCONTRAST value (R212). -/
def execSetcontrast (value : Byte) (s : State) : Host.Outcome State Fault Refusal :=
  .next (runOp .setcontrast (contrastProc value) s)

/-- RAWCMD cmd, nargs, args (R213). -/
def execRawcmd (cmd : Byte) (args : List Byte) (s : State) : Host.Outcome State Fault Refusal :=
  .next (runOp .rawcmd (busCmd cmd args) s)

end Sys2Proof.Machine
end

