-- ==== Sys2Proof/Machine/Lifecycle.lean ====
section
/-! DEFINITION. The lifecycle and the initialization sequencer: INIT, PRESETUP, SHUTDOWN, RELEASE
(45_lifecycle.md). -/

namespace Sys2Proof.Machine

/-- Where the argument byte of an init step comes from, read when the step executes (R55, R231). -/
inductive InitArg where
  | clockDiv
  | chargePumpOn
  | muxratio
  | dispOffset
  | compins
  | contrast
  | literal (b : Byte)
  deriving DecidableEq, Repr

/-- A register write an init step makes before its command (R231, steps 3, 9 and 14). -/
inductive InitWrite where
  | none
  | muxratio
  | profile
  | clearInv
  deriving DecidableEq, Repr

/-- A typed step of the init table (R115, R230). -/
inductive InitAction where
  | lifecycle (l : LState)
  | command (write : InitWrite) (c : Cmd) (args : List InitArg)
  | startLine
  | applyRotation
  | clearOrSplash
  | flush
  deriving DecidableEq, Repr

/-- `INIT_TABLE` (R55, R231): entry `k` is step `k`. -/
def initTable : List InitAction :=
  [.lifecycle .poweredOff,
    .command .none .displayOff [],
    .command .none .setDisplayClockDiv [.clockDiv],
    .command .muxratio .setMultiplex [.muxratio],
    .command .none .chargePump [.chargePumpOn],
    .command .none .segRemapFixed [],
    .command .none .comScanFixed [],
    .command .none .setDisplayOffset [.dispOffset],
    .startLine,
    .command .profile .setComPins [.compins],
    .command .none .setContrast [.contrast],
    .command .none .setPrecharge [.literal 0xF1],
    .command .none .setVcomDetect [.literal 0x35],
    .command .none .displayAllOnResume [],
    .command .clearInv .normalDisplay [],
    .applyRotation,
    .clearOrSplash,
    .flush,
    .command .none .displayAllOnResume [],
    .command .none .displayOn [],
    .lifecycle .active]

/-- The argument byte of an init step (R231). -/
def initArg (s : State) (a : InitArg) : Byte :=
  match a with
  | .clockDiv => s.par.cmds.argClockDiv
  | .chargePumpOn => s.par.cmds.argChargePumpOn
  | .muxratio => s.muxratio
  | .dispOffset => s.par.dispOffset
  | .compins => s.compins
  | .contrast => s.contrast
  | .literal b => b

/-- The register write of an init step: `MUXRATIO <- (HEIGHT - 1) & 0xFF` (R234), `(COMPINS, CONTRAST) <-
PROFILE(WIDTH, HEIGHT)` (R236), `INV <- 0` (R238). -/
def initWrite (w : InitWrite) (s : State) : State :=
  match w with
  | .none => s
  | .muxratio => { s with muxratio := BitVec.ofNat 8 (s.par.height - 1) }
  | .profile =>
    { s with
      compins := (profile s.par.width s.par.height).1
      contrast := (profile s.par.width s.par.height).2 }
  | .clearInv => { s with inv := false }

/-- The delay of step `k`, whichever step that is (R232, R275). -/
def stepDelay (k : Nat) (s : State) : State := delay (s.par.initDelay.getD k 0) s

/-- `SplashSelect(HEIGHT)` (R240) and `NOSPLASH`: the asset to blit, if any. -/
def splashAsset (p : Params) : Option (Splash × Asset) :=
  if p.noSplash then none
  else
    match p.splash with
    | none => none
    | some sp => ((if p.height < sp.threshold then sp.below else sp.atOrAbove).map fun a => (sp, a))

/-- The coordinates of an asset's 1 bits, row by row (R240). -/
def assetPixels (a : Asset) : List (Nat × Nat) :=
  (List.range a.h).flatMap fun j =>
    ((List.range a.w).filter fun i => a.bits.getD (j * a.w + i) false).map fun i => (i, j)

/-- The blit of R240: SETPIXEL for each 1 bit, in logical coordinates. -/
def blit (sp : Splash) (a : Asset) (s : State) : State :=
  (assetPixels a).foldl (fun t c => setPixel (sp.x0 + c.1) (sp.y0 + c.2) .set t) s

/-- Step 16 (R240): clear, or blit a splash asset. -/
def clearOrSplash (s : State) : State :=
  match splashAsset s.par with
  | none => fillWith 0x00 s
  | some (sp, a) => blit sp a (if sp.clearsFirst then fillWith 0x00 s else s)

/-- The action of a step of the table (R231). -/
def initAction (a : InitAction) (s : State) : Flow :=
  match a with
  | .lifecycle l => .done { s with lstate := l }
  | .command w c args =>
    let s' := initWrite w s
    busCmd (s'.par.cmds.byte c) (args.map (initArg s')) s'
  | .startLine => busCmd (startLineByte s.par) [] s
  | .applyRotation => .done { s with rot := s.par.cfgRotation }
  | .clearOrSplash => .done (clearOrSplash s)
  | .flush => flushProc s

/-- `SEQ.step <- k` (R233). -/
def setStep (k : Nat) (s : State) : State := { s with seq := { s.seq with step := k } }

/-- Step `k` (R231 to R233): its action, then, unless that was aborted, the delay `INIT_DELAY_MS` names for it
(DEDUCED, log 17: at the end of the step, for a step without a command of its own as well). -/
def initStep (k : Nat) (a : InitAction) (s : State) : Flow :=
  (initAction a (setStep k s)).bind fun t => .done (stepDelay k t)

/-- The steps of a table from step `k` on, in strict order (R233). -/
def runInit (k : Nat) (table : List InitAction) (s : State) : Flow :=
  match table with
  | [] => .done s
  | a :: rest => (initStep k a s).bind (runInit (k + 1) rest)

/-- After a failed INIT the controller is "in an indeterminate hardware state" (R59, R242): everything downstream,
what was under way included, is lost and free, and stays so until another INIT (R267; log 8). -/
def loseController (s : State) : State := { forgetController s with wire := [], ctlLost := true }

/-- "the only operation whose downstream effect is then defined is another INIT" (R267): it starts from a controller
of which nothing is known, and what was sent to it in between is part of what is unknown. -/
def regainController (s : State) : State :=
  if s.ctlLost then { forgetController s with wire := [], ctlLost := false } else s

/-- The procedure of INIT (R233, R242, R267). -/
def initProc (s : State) : Flow := (runInit 0 initTable (regainController s)).onRaised loseController

/-- An INIT whose flush would read framebuffer indices that do not exist (R66 and R22 rule it out). -/
def initLeavesPanel (s : State) : Bool := legal .init s.lstate && !windowFits s

/-- The procedure of SHUTDOWN (R245): `LSTATE` moves only after the command succeeded. -/
def shutdownProc (s : State) : Flow :=
  (busCmd s.par.cmds.displayOff [] s).bind fun s => .done { s with lstate := .poweredOff }

/-- PRESETUP (R244): no effect. -/
def execPresetup (s : State) : Host.Outcome State Fault Refusal := .next (runOp .presetup Flow.done s)

/-- INIT (R233). -/
def execInit (s : State) : Host.Outcome State Fault Refusal :=
  if initLeavesPanel s then .fault .windowOutsidePanel else .next (runOp .init initProc s)

/-- SHUTDOWN (R245). -/
def execShutdown (s : State) : Host.Outcome State Fault Refusal := .next (runOp .shutdown shutdownProc s)

/-- RELEASE (R246). -/
def execRelease (s : State) : Host.Outcome State Fault Refusal :=
  .next (runOp .release (fun t => .done { t with lstate := .hardwareReleased }) s)

end Sys2Proof.Machine
end

