-- ==== Sys2Proof/Machine/Dispatch.lean ====
section
/-! DEFINITION. Dispatch: one arm per instruction, each one call of its meaning. -/

namespace Sys2Proof.Machine

def exec (i : Instr) (s : State) : Host.Outcome State Fault Refusal :=
  match i with
  | .presetup => Sys2Proof.Machine.execPresetup s
  | .init => Sys2Proof.Machine.execInit s
  | .shutdown => Sys2Proof.Machine.execShutdown s
  | .release => Sys2Proof.Machine.execRelease s
  | .setpixel x y mode => Sys2Proof.Machine.execSetpixel x y mode s
  | .getpixel x y => Sys2Proof.Machine.execGetpixel x y s
  | .fill mode => Sys2Proof.Machine.execFill mode s
  | .rdbuf index => Sys2Proof.Machine.execRdbuf index s
  | .hspan x y len mode => Sys2Proof.Machine.execHspan x y len mode s
  | .vspan x y len mode => Sys2Proof.Machine.execVspan x y len mode s
  | .lhspan x y len mode => Sys2Proof.Machine.execLhspan x y len mode s
  | .lvspan x y len mode => Sys2Proof.Machine.execLvspan x y len mode s
  | .flush => Sys2Proof.Machine.execFlush s
  | .setpower on => Sys2Proof.Machine.execSetpower on s
  | .setinvert inv => Sys2Proof.Machine.execSetinvert inv s
  | .setcontrast value => Sys2Proof.Machine.execSetcontrast value s
  | .setrotation r => Sys2Proof.Machine.execSetrotation r s
  | .rawcmd cmd args => Sys2Proof.Machine.execRawcmd cmd args s
  | .cmdSetLowColumn c => Sys2Proof.Machine.execCmdSetLowColumn c s
  | .cmdSetHighColumn c => Sys2Proof.Machine.execCmdSetHighColumn c s
  | .cmdSetStartLine l => Sys2Proof.Machine.execCmdSetStartLine l s
  | .cmdSetContrast arg => Sys2Proof.Machine.execCmdSetContrast arg s
  | .cmdChargePump arg => Sys2Proof.Machine.execCmdChargePump arg s
  | .cmdSegRemapFixed => Sys2Proof.Machine.execCmdSegRemapFixed s
  | .cmdDisplayAllOnResume => Sys2Proof.Machine.execCmdDisplayAllOnResume s
  | .cmdNormalDisplay => Sys2Proof.Machine.execCmdNormalDisplay s
  | .cmdInvertDisplay => Sys2Proof.Machine.execCmdInvertDisplay s
  | .cmdSetMultiplex arg => Sys2Proof.Machine.execCmdSetMultiplex arg s
  | .cmdDisplayOff => Sys2Proof.Machine.execCmdDisplayOff s
  | .cmdDisplayOn => Sys2Proof.Machine.execCmdDisplayOn s
  | .cmdPageAddr p => Sys2Proof.Machine.execCmdPageAddr p s
  | .cmdComScanFixed => Sys2Proof.Machine.execCmdComScanFixed s
  | .cmdSetDisplayOffset arg => Sys2Proof.Machine.execCmdSetDisplayOffset arg s
  | .cmdSetDisplayClockDiv arg => Sys2Proof.Machine.execCmdSetDisplayClockDiv arg s
  | .cmdSetPrecharge arg => Sys2Proof.Machine.execCmdSetPrecharge arg s
  | .cmdSetComPins arg => Sys2Proof.Machine.execCmdSetComPins arg s
  | .cmdSetVcomDetect arg => Sys2Proof.Machine.execCmdSetVcomDetect arg s

end Sys2Proof.Machine
end

