-- ==== Sys2Proof/Machine/Fetch.lean ====
section
/-! DEFINITION. What happens next: which agent moves, what FBP takes from its command port (R96, R98, R300) and
what the controller takes from the bus (R77, R81). -/

namespace Sys2Proof.Machine

/-- What an agent finds to do: an instruction to run in a state, or nothing more than reaching a state. -/
inductive Fetched where
  | run (i : Instr) (s : State)
  | settled (s : State)
  deriving DecidableEq, Repr

/-- The agent that moves next (R80, R81 order each agent's own work only). DESIGN CHOICE (log 7). -/
def nextAgent (s : State) : Agent :=
  match s.turns with
  | a :: _ => a
  | [] => if s.wire.isEmpty then .fbp else .controller

/-- The turn is taken. -/
def takeTurn (s : State) : State := { s with turns := s.turns.tail }

/-- FBP at its command port (R96): idle without a word; a word presented while BUSY is not accepted and has no
effect (R300); an illegal word is answered by R98, no register changed; any other is latched into `OPW` (log 21) and
runs. -/
def fetchHost (s : State) : Fetched :=
  match s.hostIn with
  | [] => .settled s
  | w :: rest =>
    let t := { s with hostIn := rest }
    if busy s then .settled t
    else
      match decodeHost w with
      | .ok i => .run i { t with opw := w }
      | .error _ => .settled (refuse t)

/-- What a transaction is to a controller whose state is its own (R77): a data burst goes to its RAM; a command byte
runs as the instruction it is under `CMDSET`. A command whose argument did not arrive works with a free value (log 9),
and any other byte changes nothing ("All other commands leave `RAM`, `PP`, `CP` unchanged"). -/
def fetchTxn (txn : Txn) (s : State) : Fetched :=
  match txn with
  | .data bytes => .settled (withController (storeBurst bytes) s)
  | .cmd c args =>
    match decodeBus s.par.cmds (c :: args) with
    | .ok (i, _) => .run i s
    | .error .argumentMissing =>
      match decodeBus s.par.cmds [c, Config.freeArg s.freeIdx] with
      | .ok (i, _) => .run i { s with freeIdx := s.freeIdx + 1 }
      | .error _ => .settled s
    | .error _ => .settled s

/-- The controller at its end of the bus (R81): the next transaction, in order. From a failed INIT to the next INIT no
transaction has a defined effect (R267): it leaves a controller of which nothing is known. -/
def fetchBus (s : State) : Fetched :=
  match s.wire with
  | [] => .settled s
  | txn :: rest =>
    if s.ctlLost then .settled (forgetController { s with wire := rest }) else fetchTxn txn { s with wire := rest }

/-- What the next step does. -/
def fetch (s : State) : Fetched :=
  match nextAgent s with
  | .fbp => fetchHost (takeTurn s)
  | .controller => fetchBus (takeTurn s)

/-- The bus transaction of a controller row's word: the command byte, and the next byte as its argument when the
command takes one. -/
def txnOfTableWord (cs : CmdSet) (w : Nat) : Txn :=
  match cmdOfByte cs (BitVec.ofNat 8 w) with
  | some c => .cmd (BitVec.ofNat 8 w) (if c.takesArg then [BitVec.ofNat 8 (w / 256)] else [])
  | none => .cmd (BitVec.ofNat 8 w) []

/-- The next step is the controller's, and it finds the command of `w` first on its wire, with a defined effect. -/
def presentBus (s : State) (w : Nat) : State :=
  { s with turns := .controller :: s.turns, wire := txnOfTableWord s.par.cmds w :: s.wire, ctlLost := false }

/-- The next step is FBP's, idle, and HOST presents `w` first. -/
def presentHost (s : State) (w : Nat) : State :=
  { s with turns := .fbp :: s.turns, hostIn := BitVec.ofNat 64 w :: s.hostIn, seq := Seq.idle }

end Sys2Proof.Machine
end

