-- ==== Sys2Proof/Machine/Step.lean ====
section
/-! DEFINITION. One step: one operation of FBP run to its end (R30, R80), or one transaction taken by the
controller. -/

namespace Sys2Proof.Machine

/-- One step of the machine. DESIGN CHOICE (safe, log 14): an operation is one big step, as R30 allows. -/
def step (s : State) : Host.Outcome State Fault Refusal :=
  match fetch s with
  | .run i t => exec i t
  | .settled t => .next t

/-- `s` with the instruction of an opcode-table row placed where the next step takes it: an 8-bit row is a command
on the controller's wire, any other a word at the command port of an idle FBP. DESIGN CHOICE (log 15): how a program
comes to run is HOST's, so placing the word stands for HOST presenting it. -/
def State.withFetchWord (s : State) (nbits w : Nat) : State :=
  if nbits == 8 then presentBus s w else presentHost s w

end Sys2Proof.Machine
end

