-- ==== Sys2Proof/Safety.lean ====
section
/-! DEFINITION. What claims are stated in: the window invariant (R22), the invariant of the machine, and the
refusal mark (R270). -/

namespace Sys2Proof.Machine

/-- The window is empty, in the encoding of R23. -/
def windowEmpty (s : State) : Prop := s.win = { x1 := s.par.width, y1 := s.par.height, x2 := 0, y2 := 0 }

/-- The window is a rectangle of the panel. -/
def windowInPanel (s : State) : Prop :=
  s.win.x1 ≤ s.win.x2 ∧ s.win.x2 < s.par.width ∧ s.win.y1 ≤ s.win.y2 ∧ s.win.y2 < s.par.height

/-- The invariant of the dirty window (R22). -/
def WindowOk (s : State) : Prop := windowEmpty s ∨ windowInPanel s

/-- Every listed address is below `n`. -/
def Memory.below (n : Nat) (m : Memory) : Prop := ∀ c ∈ m, c.1 < n

/-- A failed transaction is the last event of the trace (R261). -/
def endsFailed (s : State) : Prop := ∃ t, s.trace.getLast? = some (.bus t .fail)

/-- The invariant of the machine between steps. -/
structure Inv (s : State) : Prop where
  /-- The construction parameters are in range (R8). -/
  params : s.par.inRange = true
  /-- R22. -/
  window : WindowOk s
  /-- Between operations FBP is idle (R28, R29). -/
  idle : s.seq = Seq.idle
  /-- The framebuffer is canonical and holds no address outside `0..FBLEN-1` (R53, R66). -/
  fb : s.fb.wf ∧ Memory.below (fblen s) s.fb
  /-- So does the controller's RAM, 8 pages of 132 columns (R74). -/
  ram : s.ctl.ram.wf ∧ Memory.below (8 * ramColumns) s.ctl.ram
  /-- `TRANSPORT_ERROR` stands only while the failure is the last event (R261, R264). -/
  error : s.status = .transportError → endsFailed s
  /-- In `Uninitialized` no bus traffic has been issued (R272). -/
  quiet : s.lstate = .uninitialized → s.trace = []
  /-- The controller is lost only between a failed INIT and the next one (R59, R242, R267). -/
  lost : s.ctlLost = true → s.lstate = .poweredOff ∨ s.lstate = .hardwareReleased

/-- No refused operation and no illegal word has been given to FBP: the runs the spec gives a meaning (R270). -/
def Unrefused (s : State) : Prop := s.refusalMark = false

/-- What a run of `k` steps means (R270): where it ends, or nothing once a refused operation or an illegal word is
part of it. The machine goes on as hardware built to the spec does; a claim about programs is to be stated of this. -/
def runMeaning (k : Nat) (s : State) : Option State :=
  match core.run k s with
  | .next t => if State.refusalMark t then none else some t
  | .fault _ => none
  | .refused _ => none

end Sys2Proof.Machine
end

