-- ==== Sys2Proof/Certificates/Slice0/Obligations.lean ====
section
/-! DEFINITION. The statements for the provers. The vocabulary comes first: words and bus events written out from
the spec's own formulas, not through the model's encoder or procedures, and the frames the statements share. -/

namespace Sys2Proof.Machine

/-! ## Vocabulary -/

/-- The value of an operation word (R91): `op*2^59 + mode*2^57 + a*2^32 + b*2^16 + c`. -/
def wordValue (op mode a b c : Nat) : Word :=
  BitVec.ofNat 64 (op * 2 ^ 59 + mode * 2 ^ 57 + a * 2 ^ 32 + b * 2 ^ 16 + c)

/-- The 16-bit two's-complement field of a signed operand (R94). -/
def signedField (v : Int) : Nat := (v % 65536).toNat

/-- The mode's number (R95). -/
def modeNumber : Mode → Nat
  | .clear => 0
  | .set => 1
  | .invert => 2

/-- The rotation's number (R43). -/
def rotNumber : Rot → Nat
  | .r0 => 0
  | .r1 => 1
  | .r2 => 2
  | .r3 => 3

/-- What a mode makes of one pixel (R191). -/
def modeBit : Mode → Bool → Bool
  | .set, _ => true
  | .clear, _ => false
  | .invert, b => !b

/-- Bit `b` of framebuffer byte `a`. -/
def fbBit (s : State) (a b : Nat) : Bool := (s.fb.read a).getLsbD b

/-- Physical pixel (`px`, `py`), by R60. -/
def pixel (s : State) (px py : Nat) : Bool := fbBit s (px + py / 8 * s.par.width) (py % 8)

/-- Physical pixel (`px`, `py`) lies in the window. -/
def inWindow (w : Window) (px py : Nat) : Prop := w.x1 ≤ px ∧ px ≤ w.x2 ∧ w.y1 ≤ py ∧ py ≤ w.y2

/-- The state once TRANSPORT answered `ok` to each transaction of a list of events and each delay passed. -/
def after (s : State) : List Event → State
  | [] => s
  | .delay ms :: rest => after { s with trace := s.trace ++ [.delay ms] } rest
  | .bus t _ :: rest => after (recordOk t s) rest

/-- TRANSPORT, asked for the transactions of a list of events one after the other, answers `ok` to each. -/
def answersOk (s : State) : List Event → Bool
  | [] => true
  | .delay ms :: rest => answersOk { s with trace := s.trace ++ [.delay ms] } rest
  | .bus t _ :: rest => answerOf s t == .ok && answersOk (recordOk t s) rest

/-- The transactions of a list of events. -/
def txnsOf : List Event → List Txn
  | [] => []
  | .delay _ :: rest => txnsOf rest
  | .bus t _ :: rest => t :: txnsOf rest

/-- A command transaction answered `ok`. -/
def okCmd (c : Byte) (args : List Byte) : Event := .bus (.cmd c args) .ok

/-- `t` is `s` after a completed operation with result port unspecified, but for framebuffer and window. -/
def SameButCanvas (s t : State) : Prop :=
  t = { s with
    fb := t.fb, win := t.win, status := .ok, seq := Seq.idle, result := t.result, freeIdx := t.freeIdx }

/-- `t` is `s` after an illegal or refused operation: no register, memory or trace change but `STATUS`, the
result port (unspecified) and the refusal mark (R98, R270). -/
def SameButRefused (s t : State) : Prop :=
  t = { s with
    status := .illegal, seq := Seq.idle, refusalMark := true, result := t.result, freeIdx := t.freeIdx }

/-- `t` is `u` after an operation whose transactions `evs` were all answered `ok`. -/
def CompletedBus (u : State) (evs : List Event) (t : State) : Prop :=
  t = { u with
    trace := u.trace ++ evs, wire := u.wire ++ txnsOf evs, answers := u.answers.drop (txnsOf evs).length
    status := .ok, seq := Seq.idle, result := t.result, freeIdx := t.freeIdx }

/-- `t` is `u` after an operation whose transactions `evs` were answered `ok` and whose next one, `x`, failed
(R264); how many leading bytes `k` of `x` are under way (R200 leaves it unknown; that they are leading ones is log 8),
and the result port, are free. -/
def AbortedBus (u : State) (evs : List Event) (x : Txn) (t : State) : Prop :=
  ∃ k, t = { u with
    trace := u.trace ++ evs ++ [.bus x .fail], answers := u.answers.drop ((txnsOf evs).length + 1)
    wire := u.wire ++ txnsOf evs ++ Txn.delivered x k, status := .transportError, seq := Seq.idle
    result := t.result, freeIdx := t.freeIdx }

/-- The events of a flush (R203 to R206), from the window and the framebuffer of `s`. -/
def flushEvents (s : State) : List Event :=
  (List.range' (s.win.y1 / 8) (s.win.y2 / 8 + 1 - s.win.y1 / 8)).flatMap fun p =>
    [okCmd (s.par.cmds.pageAddr ||| BitVec.ofNat 8 ((p + s.par.pageOffset.toNat) % 16)) [],
      okCmd (s.par.cmds.setLowColumn ||| BitVec.ofNat 8 ((s.win.x1 + s.par.colOffset.toNat) % 256 % 16)) [],
      okCmd (s.par.cmds.setHighColumn ||| BitVec.ofNat 8 ((s.win.x1 + s.par.colOffset.toNat) % 256 / 16)) [],
      .bus (.data ((List.range' s.win.x1 (s.win.x2 + 1 - s.win.x1)).map fun x =>
        s.fb.read (x + p * s.par.width))) .ok]

/-- Step `k` of the init table: its events, and the delay `INIT_DELAY_MS` names for it (R232), all marked with the
step. -/
def initStepEvents (p : Params) (k : Nat) (evs : List Event) : List (Nat × Event) :=
  (evs ++ if p.initDelay.getD k 0 = 0 then [] else [Event.delay (p.initDelay.getD k 0)]).map fun e => (k, e)

/-- The events of steps 0 to 16 of INIT (R231), from the construction parameters alone. -/
def initConfigSteps (p : Params) : List (Nat × Event) :=
  initStepEvents p 0 [] ++
  initStepEvents p 1 [okCmd p.cmds.displayOff []] ++
  initStepEvents p 2 [okCmd p.cmds.setDisplayClockDiv [p.cmds.argClockDiv]] ++
  initStepEvents p 3 [okCmd p.cmds.setMultiplex [BitVec.ofNat 8 (p.height - 1)]] ++
  initStepEvents p 4 [okCmd p.cmds.chargePump [p.cmds.argChargePumpOn]] ++
  initStepEvents p 5 [okCmd p.cmds.segRemapFixed []] ++
  initStepEvents p 6 [okCmd p.cmds.comScanFixed []] ++
  initStepEvents p 7 [okCmd p.cmds.setDisplayOffset [p.dispOffset]] ++
  initStepEvents p 8 [okCmd (p.cmds.setStartLine ||| BitVec.ofNat 8 (p.startLine.toNat % 64)) []] ++
  initStepEvents p 9 [okCmd p.cmds.setComPins [(profile p.width p.height).1]] ++
  initStepEvents p 10 [okCmd p.cmds.setContrast [(profile p.width p.height).2]] ++
  initStepEvents p 11 [okCmd p.cmds.setPrecharge [0xF1]] ++
  initStepEvents p 12 [okCmd p.cmds.setVcomDetect [0x35]] ++
  initStepEvents p 13 [okCmd p.cmds.displayAllOnResume []] ++
  initStepEvents p 14 [okCmd p.cmds.normalDisplay []] ++
  initStepEvents p 15 [] ++
  initStepEvents p 16 []

/-- The events of steps 18 to 20 of INIT (R231). -/
def initPowerSteps (p : Params) : List (Nat × Event) :=
  initStepEvents p 18 [okCmd p.cmds.displayAllOnResume []] ++
  initStepEvents p 19 [okCmd p.cmds.displayOn []] ++
  initStepEvents p 20 []

/-- The instructions step 16 of INIT amounts to (R240): FILL CLEAR without an asset; with one, FILL CLEAR if the splash
clears first, then SETPIXEL of the asset's 1 bits, row by row, at the splash's position. -/
def drawInstrs (p : Params) : List Instr :=
  match (if p.noSplash then none else p.splash) with
  | none => [.fill .clear]
  | some sp =>
    match (if p.height < sp.threshold then sp.below else sp.atOrAbove) with
    | none => [.fill .clear]
    | some a =>
      (if sp.clearsFirst then [.fill .clear] else []) ++
        (List.range a.h).flatMap fun j => (List.range a.w).flatMap fun i =>
          if a.bits.getD (j * a.w + i) false then [.setpixel (sp.x0 + i) (sp.y0 + j) .set] else []

/-- There is no splash asset to blit: `NOSPLASH`, no splash, or none for this height (R240, R56). -/
def NoSplashAsset (p : Params) : Prop :=
  p.noSplash = true ∨ p.splash = none ∨
  ∃ sp, p.splash = some sp ∧ (p.height < sp.threshold → sp.below = none) ∧
    (sp.threshold ≤ p.height → sp.atOrAbove = none)

/-- The splash and the asset that this height selects (R240; the form of the threshold is log 12). -/
def SplashAssetIs (p : Params) (sp : Splash) (a : Asset) : Prop :=
  p.noSplash = false ∧ p.splash = some sp ∧ (p.height < sp.threshold → sp.below = some a) ∧
    (sp.threshold ≤ p.height → sp.atOrAbove = some a)

/-- Run instructions one after the other through `exec`. -/
def execAll : List Instr → State → Host.Outcome State Fault Refusal
  | [], s => .next s
  | i :: rest, s =>
    match exec i s with
    | .next t => execAll rest t
    | .fault r => .fault r
    | .refused r => .refused r

/-- The state whose framebuffer and window are those of step 16 of INIT (R240), reached with the configured rotation
(R239). -/
def initDrawn (s : State) : State :=
  match execAll (drawInstrs s.par) { s with rot := s.par.cfgRotation } with
  | .next t => t
  | .fault _ => s
  | .refused _ => s

/-- Every event of an INIT all of whose transactions are answered `ok` (R231), each with its step. -/
def initSteps (s : State) : List (Nat × Event) :=
  initConfigSteps s.par ++
  initStepEvents s.par 17 (if isEmpty (initDrawn s) then [] else flushEvents (initDrawn s)) ++
  initPowerSteps s.par

/-- The events of an INIT, in order. -/
def initEvents (s : State) : List Event := (initSteps s).map Prod.snd

/-- The flush of a whole panel of zero bytes (R241). -/
def zeroPanelEvents (p : Params) : List Event :=
  (List.range ((p.height + 7) / 8)).flatMap fun k =>
    [okCmd (p.cmds.pageAddr ||| BitVec.ofNat 8 ((k + p.pageOffset.toNat) % 16)) [],
      okCmd (p.cmds.setLowColumn ||| BitVec.ofNat 8 (p.colOffset.toNat % 16)) [],
      okCmd (p.cmds.setHighColumn ||| BitVec.ofNat 8 (p.colOffset.toNat / 16)) [],
      .bus (.data (List.replicate p.width 0)) .ok]

/-- The states an operation is legal in, read off the table of R271. -/
def legalStates : Op → List LState
  | .presetup => [.uninitialized]
  | .init => [.uninitialized, .poweredOff, .active]
  | .shutdown => [.poweredOff, .active]
  | .release => [.poweredOff]
  | .setpixel => [.uninitialized, .poweredOff, .active]
  | .getpixel => [.uninitialized, .poweredOff, .active]
  | .fill => [.uninitialized, .poweredOff, .active]
  | .rdbuf => [.uninitialized, .poweredOff, .active]
  | .hspan => [.uninitialized, .poweredOff, .active]
  | .vspan => [.uninitialized, .poweredOff, .active]
  | .lhspan => [.uninitialized, .poweredOff, .active]
  | .lvspan => [.uninitialized, .poweredOff, .active]
  | .setrotation => [.uninitialized, .poweredOff, .active]
  | .flush => [.poweredOff, .active]
  | .setpower => [.poweredOff, .active]
  | .setinvert => [.poweredOff, .active]
  | .setcontrast => [.poweredOff, .active]
  | .rawcmd => [.poweredOff, .active]

/-- A physical pixel is covered by a span (R170). -/
def Span.covers (sp : Span) (px py : Int) : Prop :=
  match sp.dir with
  | .horizontal => py = sp.y ∧ sp.x ≤ px ∧ px < sp.x + sp.len
  | .vertical => px = sp.x ∧ sp.y ≤ py ∧ py < sp.y + sp.len

end Sys2Proof.Machine

open Sys2Proof Sys2Proof.Machine

/-! ## Encoding -/

/-- Words of 95_test_vectors.md section 2.1 (V-E1, V-E5 to V-E7, V-E9, V-E10, V-E12 to V-E17, V-E20, V-E21, V-E24)
decode to their operations, and three bus commands of its section 3, program P4 (`B7`, `81 8F`, `AF`), to theirs.
That a controller row is read under `CMDSET_GK`, its argument byte in bits 15..8, is log 19 (PRESUMED). -/
def Obligations.SpecWordsDecodeToTheirOperations : Prop :=
  decodeTableWord 64 0x0800000000000000 = some .presetup ∧
  decodeTableWord 64 0x42000003000A0000 = some (.setpixel 3 10 .set) ∧
  decodeTableWord 64 0x4400FFFFFFFF0000 = some (.setpixel (-1) (-1) .invert) ∧
  decodeTableWord 64 0x48000003000A0000 = some (.getpixel 3 10) ∧
  decodeTableWord 64 0x5200000000000000 = some (.fill .set) ∧
  decodeTableWord 64 0x5800000000000083 = some (.rdbuf 131) ∧
  decodeTableWord 64 0x6200FFFF00000003 = some (.hspan (-1) 0 3 .set) ∧
  decodeTableWord 64 0x6A0000050003000F = some (.vspan 5 3 15 .set) ∧
  decodeTableWord 64 0x7200000000000040 = some (.lhspan 0 0 64 .set) ∧
  decodeTableWord 64 0x7A0000020000000A = some (.lvspan 2 0 10 .set) ∧
  decodeTableWord 64 0x8000000000000000 = some .flush ∧
  decodeTableWord 64 0x8800000000000001 = some (.setpower true) ∧
  decodeTableWord 64 0x9800000000000020 = some (.setcontrast 0x20) ∧
  decodeTableWord 64 0xA000000000000001 = some (.setrotation .r1) ∧
  decodeTableWord 64 0xAE00000003020121 = some (.rawcmd 0x21 [0x01, 0x02, 0x03]) ∧
  decodeTableWord 8 0xB7 = some (.cmdPageAddr 7) ∧
  decodeTableWord 8 0x8F81 = some (.cmdSetContrast 0x8F) ∧
  decodeTableWord 8 0xAF = some .cmdDisplayOn

/-- Decoding the encoding of any well-formed instruction, host operation or controller command, gives it back,
under every command set whose field bits are clear (R114) and no byte of which is two commands. -/
def Obligations.DecodeOfEncodeIsTheInstruction : Prop :=
  ∀ (cs : CmdSet) (i : Instr), cs.basesClear = true → cs.unambiguous = true → i.wellFormed = true →
    decode cs (encode cs i) = some i

/-- A word that decodes is the encoding of the well-formed instruction it decodes to: no bit of a legal word is
ignored, and no two words decode to one operation. -/
def Obligations.DecodedWordIsTheEncodingOfItsOperation : Prop :=
  ∀ (cs : CmdSet) (w : Word) (i : Instr), decodeHost w = .ok i →
    i.wellFormed = true ∧ i.op ≠ none ∧ encode cs i = .host w

/-- The word of every host operation, by the value formula of R91, the codes of R92, the formats of R93 and the
operand assembly of R94. -/
def Obligations.OperationWordsHaveTheSpecValues : Prop :=
  ∀ (cs : CmdSet) (x y len : Int) (m : Mode) (n : Nat) (on : Bool) (v c a0 a1 a2 : Byte) (r : Rot), n < 65536 →
    encode cs .presetup = .host (wordValue 0x01 0 0 0 0) ∧
    encode cs .init = .host (wordValue 0x02 0 0 0 0) ∧
    encode cs .shutdown = .host (wordValue 0x03 0 0 0 0) ∧
    encode cs .release = .host (wordValue 0x04 0 0 0 0) ∧
    encode cs (.setpixel x y m) = .host (wordValue 0x08 (modeNumber m) (signedField x) (signedField y) 0) ∧
    encode cs (.getpixel x y) = .host (wordValue 0x09 0 (signedField x) (signedField y) 0) ∧
    encode cs (.fill m) = .host (wordValue 0x0A (modeNumber m) 0 0 0) ∧
    encode cs (.rdbuf n) = .host (wordValue 0x0B 0 0 0 n) ∧
    encode cs (.hspan x y len m) =
      .host (wordValue 0x0C (modeNumber m) (signedField x) (signedField y) (signedField len)) ∧
    encode cs (.vspan x y len m) =
      .host (wordValue 0x0D (modeNumber m) (signedField x) (signedField y) (signedField len)) ∧
    encode cs (.lhspan x y len m) =
      .host (wordValue 0x0E (modeNumber m) (signedField x) (signedField y) (signedField len)) ∧
    encode cs (.lvspan x y len m) =
      .host (wordValue 0x0F (modeNumber m) (signedField x) (signedField y) (signedField len)) ∧
    encode cs .flush = .host (wordValue 0x10 0 0 0 0) ∧
    encode cs (.setpower on) = .host (wordValue 0x11 0 0 0 on.toNat) ∧
    encode cs (.setinvert on) = .host (wordValue 0x12 0 0 0 on.toNat) ∧
    encode cs (.setcontrast v) = .host (wordValue 0x13 0 0 0 v.toNat) ∧
    encode cs (.setrotation r) = .host (wordValue 0x14 0 0 0 (rotNumber r)) ∧
    encode cs (.rawcmd c []) = .host (wordValue 0x15 0 0 0 c.toNat) ∧
    encode cs (.rawcmd c [a0]) = .host (wordValue 0x15 1 0 0 (a0.toNat * 256 + c.toNat)) ∧
    encode cs (.rawcmd c [a0, a1]) = .host (wordValue 0x15 2 0 a1.toNat (a0.toNat * 256 + c.toNat)) ∧
    encode cs (.rawcmd c [a0, a1, a2]) =
      .host (wordValue 0x15 3 0 (a2.toNat * 256 + a1.toNat) (a0.toNat * 256 + c.toNat))

/-- When a word is illegal: the list of R98, over the fields of R91 and the formats of R93. -/
def Obligations.WordsAreIllegalExactlyAsListed : Prop :=
  ∀ w : Word,
    let op := w.toNat / 2 ^ 59
    let mode := w.toNat / 2 ^ 57 % 4
    let rsv := w.toNat / 2 ^ 48 % 512
    let a := w.toNat / 2 ^ 32 % 65536
    let b := w.toNat / 2 ^ 16 % 65536
    let c := w.toNat % 65536
    (∃ e, decodeHost w = .error e) ↔
      (op = 0 ∨ (5 ≤ op ∧ op ≤ 7) ∨ 0x16 ≤ op) ∨ rsv ≠ 0 ∨
      ((op ≤ 4 ∨ op = 0x10) ∧ ¬ (mode = 0 ∧ a = 0 ∧ b = 0 ∧ c = 0)) ∨
      (op = 0x08 ∧ (mode = 3 ∨ c ≠ 0)) ∨
      (op = 0x09 ∧ (mode ≠ 0 ∨ c ≠ 0)) ∨
      (op = 0x0A ∧ (mode = 3 ∨ ¬ (a = 0 ∧ b = 0 ∧ c = 0))) ∨
      (op = 0x0B ∧ ¬ (mode = 0 ∧ a = 0 ∧ b = 0)) ∨
      (0x0C ≤ op ∧ op ≤ 0x0F ∧ mode = 3) ∨
      (0x11 ≤ op ∧ op ≤ 0x14 ∧ ¬ (mode = 0 ∧ a = 0 ∧ b = 0)) ∨
      ((op = 0x11 ∨ op = 0x12) ∧ 2 ≤ c) ∨ (op = 0x13 ∧ 256 ≤ c) ∨ (op = 0x14 ∧ 4 ≤ c) ∨
      (op = 0x15 ∧ (a ≠ 0 ∨ (mode ≤ 2 ∧ 256 ≤ b) ∨ (mode ≤ 1 ∧ b ≠ 0) ∨ (mode = 0 ∧ 256 ≤ c)))

/-- The mask tables (R54): their values, and the formulas the values come from. -/
def Obligations.MaskTablesFollowTheirFormulas : Prop :=
  maskLower = [0x00, 0x01, 0x03, 0x07, 0x0F, 0x1F, 0x3F, 0x7F] ∧
  maskUpper = [0x00, 0x80, 0xC0, 0xE0, 0xF0, 0xF8, 0xFC, 0xFE] ∧
  ∀ n, n < 8 →
    (lower n).toNat = 2 ^ n - 1 ∧ (upper n).toNat = 255 - (2 ^ (8 - n) - 1) ∧
    ∀ b, b < 8 → (upper n).getLsbD b = decide (8 - n ≤ b) ∧ (1 ≤ n → upper n = ~~~(lower (8 - n)))

/-- `Apply` acts lane by lane (R19, R191). -/
def Obligations.ApplyActsLaneByLane : Prop :=
  ∀ (mode : Mode) (b m : Byte) (n : Nat), n < 8 →
    (applyMode mode b m).getLsbD n = if m.getLsbD n then modeBit mode (b.getLsbD n) else b.getLsbD n

/-! ## Reset and the dirty window -/

/-- Construction with any parameters, whatever the spec leaves open, gives the empty window (R24). -/
def Obligations.ConstructionEmptiesTheWindow : Prop :=
  ∀ (p : Params) (u : Unstated), (State.construct p u).win = { x1 := p.width, y1 := p.height, x2 := 0, y2 := 0 }

/-- Reset is a construction (R290): the documented defaults of R7, `Uninitialized`, `STATUS` OK, `SEQ` idle with its
other fields zero (R29, the spec's decision D22), no event. The panel size, and the values of what R290 leaves
unspecified, are the model's choices (log 1 and 2) and are not stated here. -/
def Obligations.ResetHasTheDocumentedDefaults : Prop :=
  (∀ (p : Params) (u : Unstated), (State.construct p u).par = p ∧ (State.construct p u).lstate = .uninitialized ∧
    (State.construct p u).status = .ok ∧
    (State.construct p u).seq = { op := none, step := 0, page := 0, phase := .page } ∧ (State.construct p u).trace = []) ∧
  (∃ p u, State.reset = State.construct p u) ∧ State.reset.par.colOffset = 2 ∧ State.reset.par.pageOffset = 0 ∧
  State.reset.par.dispOffset = 0 ∧ State.reset.par.startLine = 0 ∧ State.reset.par.noSplash = false

/-- `Expand` (R151): pairwise min and max; from the empty window exactly the rectangle; commutative, associative
and idempotent. -/
def Obligations.ExpandFoldsRectangles : Prop :=
  ∀ (s : State) (x1 y1 x2 y2 u1 v1 u2 v2 : Nat),
    expand x1 y1 x2 y2 s = { s with
      win := { x1 := min s.win.x1 x1, y1 := min s.win.y1 y1, x2 := max s.win.x2 x2, y2 := max s.win.y2 y2 } } ∧
    (windowEmpty s → x1 ≤ x2 → x2 < s.par.width → y1 ≤ y2 → y2 < s.par.height →
      (expand x1 y1 x2 y2 s).win = { x1 := x1, y1 := y1, x2 := x2, y2 := y2 }) ∧
    expand u1 v1 u2 v2 (expand x1 y1 x2 y2 s) = expand x1 y1 x2 y2 (expand u1 v1 u2 v2 s) ∧
    expand u1 v1 u2 v2 (expand x1 y1 x2 y2 s) = expand (min x1 u1) (min y1 v1) (max x2 u2) (max y2 v2) s ∧
    expand x1 y1 x2 y2 (expand x1 y1 x2 y2 s) = expand x1 y1 x2 y2 s

/-- `IsEmpty()` (R153) is `DX1 > DX2`, and under the window invariant of R22 the vertical test agrees. -/
def Obligations.EmptyTestsAgree : Prop :=
  ∀ s : State, 1 ≤ s.par.width → 1 ≤ s.par.height →
    (isEmpty s = true ↔ s.win.x1 > s.win.x2) ∧
    (WindowOk s → (s.win.x1 > s.win.x2 ↔ s.win.y1 > s.win.y2)) ∧
    (isEmpty (dirtyReset s) = true)

/-! ## The machine as a whole -/

/-- The invariant holds after construction with parameters in range, for every framebuffer and controller RAM that
fits, and at reset. -/
def Obligations.InvariantHoldsAtConstruction : Prop :=
  (∀ (p : Params) (u : Unstated), p.inRange = true → u.fb.wf → Memory.below (p.width * ((p.height + 7) / 8)) u.fb →
    u.ctl.ram.wf → Memory.below (8 * 132) u.ctl.ram → Inv (State.construct p u)) ∧
  Inv State.reset

/-- Every step from a state in order reaches a state in order. -/
def Obligations.EveryStepKeepsTheInvariant : Prop :=
  ∀ s t : State, Inv s → step s = .next t → Inv t

/-- From a state in order a step always answers a next state, neither `Outcome.fault` nor `Outcome.refused`, whatever
HOST presents, TRANSPORT answers and the wire holds (R265, R311). That an operation refused in the sense of R270 and an
illegal word answer a next state, marked, is log 4, and that TRANSPORT always answers is log 11 (both DESIGN CHOICE). -/
def Obligations.EveryStepFromAnOrderlyStateCompletes : Prop :=
  ∀ s : State, Inv s → ∃ t, step s = .next t

/-- R22: in every state a run reaches from construction, whatever HOST presents, TRANSPORT answers and the agents'
turns are, the window is the empty encoding or a rectangle of the panel. -/
def Obligations.WindowInvariantOnEveryRun : Prop :=
  ∀ (p : Params) (u : Unstated) (ws : List Word) (as : List Answer) (ts : List Agent) (k : Nat) (t : State),
    p.inRange = true → u.fb.wf → Memory.below (p.width * ((p.height + 7) / 8)) u.fb →
    u.ctl.ram.wf → Memory.below (8 * 132) u.ctl.ram →
    core.run k { State.construct p u with hostIn := ws, answers := as, turns := ts } = .next t →
    (t.win = { x1 := t.par.width, y1 := t.par.height, x2 := 0, y2 := 0 } ∨
      (t.win.x1 ≤ t.win.x2 ∧ t.win.x2 ≤ t.par.width - 1 ∧ t.win.y1 ≤ t.win.y2 ∧ t.win.y2 ≤ t.par.height - 1))

/-- `TRACE` is append-only (R57) and nothing writes a construction parameter (R35 to R42), in any step from any
state. -/
def Obligations.TraceGrowsAndParametersStay : Prop :=
  ∀ s t : State, step s = .next t → s.trace <+: t.trace ∧ t.par = s.par

/-- The refusal mark is kept for the whole run (R270): no step clears it, so a run that ends marked has no meaning
however long it goes on (`runMeaning`). -/
def Obligations.RefusedRunsHaveNoMeaning : Prop :=
  (∀ s t : State, step s = .next t → s.refusalMark = true → t.refusalMark = true) ∧
  ∀ (k n : Nat) (s t : State), core.run k s = .next t → t.refusalMark = true → runMeaning (k + n) s = none

/-- An operation appends transactions that were answered `ok`, but for the last when and only when it ends in
TRANSPORT_ERROR; then `SEQ` is idle (R200, R261, R264). -/
def Obligations.OnlyTheLastTransactionCanFail : Prop :=
  ∀ (i : Instr) (s t : State), i.op ≠ none → exec i s = .next t →
    ∃ new, t.trace = s.trace ++ new ∧ (∀ x, Event.bus x .fail ∉ new.dropLast) ∧
      (t.status = .transportError ↔ ∃ x, new.getLast? = some (.bus x .fail)) ∧ t.seq = Seq.idle

/-- R243: which instruction moves `LSTATE` from where to where; nothing else moves it. -/
def Obligations.LifecycleMovesOnlyAsTabled : Prop :=
  ∀ (i : Instr) (s t : State), exec i s = .next t →
    t.lstate = s.lstate ∨
    (i = .init ∧ s.lstate ≠ .hardwareReleased ∧
      ((t.status = .ok ∧ t.lstate = .active) ∨ (t.status = .transportError ∧ t.lstate = .poweredOff))) ∨
    (i = .shutdown ∧ s.lstate = .active ∧ t.status = .ok ∧ t.lstate = .poweredOff) ∨
    (i = .release ∧ s.lstate = .poweredOff ∧ t.lstate = .hardwareReleased)

/-- `HardwareReleased` is terminal (R243): every operation is refused there, and in the model's form of a refusal, which
is log 4 (DESIGN CHOICE), a step leaves every register, the framebuffer and the trace; only completion codes, the port
and the controller's own side can move. -/
def Obligations.HardwareReleasedIsTerminal : Prop :=
  ∀ s t : State, s.lstate = .hardwareReleased → step s = .next t →
    t = { s with
      opw := t.opw, seq := t.seq, status := t.status, result := t.result, refusalMark := t.refusalMark
      freeIdx := t.freeIdx, hostIn := t.hostIn, wire := t.wire, turns := t.turns, ctl := t.ctl }

/-- An operation in a state the table of R271 does not list for it is refused: the model's form of a refusal is
log 4 (no state change, `STATUS` ILLEGAL, the refusal mark). -/
def Obligations.OperationsOutsideTheirStatesAreRefused : Prop :=
  ∀ (i : Instr) (o : Op) (s : State), i.op = some o → s.lstate ∉ legalStates o →
    ∃ t, exec i s = .next t ∧ SameButRefused s t

/-- FILL INVERT (R136) and RDBUF outside the buffer (R138) are refused in every state, in the form of log 4. -/
def Obligations.FillInvertAndOutsideReadsAreRefused : Prop :=
  ∀ (s : State) (n : Nat), s.par.width * ((s.par.height + 7) / 8) ≤ n →
    (∃ t, exec (.fill .invert) s = .next t ∧ SameButRefused s t) ∧
    (∃ t, exec (.rdbuf n) s = .next t ∧ SameButRefused s t)

/-- What a host operation does to the parameters, the port, the inputs and the controller (R52, R58): parameters, the
words HOST presents and the turns stay; `OPW` stays, also after the operation (log 21, DESIGN CHOICE); of TRANSPORT's
scripted answers it takes one per transaction (log 11); it only adds to what is under way. INIT alone touches the
controller: a failed one leaves it lost, and one that starts from a lost controller starts from an unknown one (R59,
R267; the form is log 8). -/
def Obligations.HostOperationsTouchInputsAndControllerOnlySo : Prop :=
  ∀ (i : Instr) (s t : State), i.op ≠ none → exec i s = .next t →
    (t.par = s.par ∧ t.opw = s.opw ∧ t.hostIn = s.hostIn ∧ t.turns = s.turns) ∧
    (∃ new, t.trace = s.trace ++ new ∧ t.answers = s.answers.drop (txnsOf new).length) ∧
    ((i ≠ .init ∨ t.status = .illegal) → t.ctl = s.ctl ∧ t.ctlLost = s.ctlLost ∧ s.wire <+: t.wire) ∧
    (i = .init → t.status = .ok → t.ctlLost = false ∧ (s.ctlLost = false → t.ctl = s.ctl ∧ s.wire <+: t.wire)) ∧
    (i = .init → t.status = .transportError → t.ctlLost = true ∧ t.wire = [])

/-- The buffer operations, SETROTATION, PRESETUP and RELEASE issue no transaction and write no controller
configuration register (40_framebuffer.md, 42_geometry.md, 43_span_writer.md, R244, R246). -/
def Obligations.BufferOperationsIssueNoTransaction : Prop :=
  ∀ (i : Instr) (o : Op) (s t : State), i.op = some o →
    o ∈ [Op.presetup, .release, .setpixel, .getpixel, .fill, .rdbuf, .hspan, .vspan, .lhspan, .lvspan, .setrotation] →
    exec i s = .next t →
    t = { s with
      win := t.win, fb := t.fb, rot := t.rot, lstate := t.lstate, seq := Seq.idle, status := t.status
      result := t.result, freeIdx := t.freeIdx, refusalMark := t.refusalMark } ∧
    (o ≠ .setrotation → t.rot = s.rot) ∧ (o ≠ .release → t.lstate = s.lstate) ∧
    (o ∈ [Op.presetup, .release, .getpixel, .rdbuf, .setrotation] → t.fb = s.fb ∧ t.win = s.win)

/-- The bus operations and SHUTDOWN leave the framebuffer and every register but the one each writes: FLUSH the
window, SETINVERT `INV`, SETCONTRAST `CONTRAST`, SHUTDOWN `LSTATE` (R206, R210 to R213, R245). -/
def Obligations.BusOperationsWriteOnlyTheirRegister : Prop :=
  ∀ (i : Instr) (o : Op) (s t : State), i.op = some o →
    o ∈ [Op.flush, .setpower, .setinvert, .setcontrast, .rawcmd, .shutdown] → exec i s = .next t →
    t = { s with
      win := t.win, inv := t.inv, contrast := t.contrast, lstate := t.lstate, trace := t.trace
      answers := t.answers, wire := t.wire, seq := Seq.idle, status := t.status, result := t.result
      freeIdx := t.freeIdx, refusalMark := t.refusalMark } ∧
    (o ≠ .flush → t.win = s.win) ∧ (o ≠ .setinvert → t.inv = s.inv) ∧
    (o ≠ .setcontrast → t.contrast = s.contrast) ∧ (o ≠ .shutdown → t.lstate = s.lstate)

/-- `ROT` is not read by HSPAN, VSPAN, FILL, RDBUF and FLUSH (R43): run under another rotation they do the same. -/
def Obligations.PhysicalOperationsIgnoreRotation : Prop :=
  ∀ (i : Instr) (o : Op) (s t : State) (r : Rot), i.op = some o → o ∈ [Op.hspan, .vspan, .fill, .rdbuf, .flush] →
    exec i s = .next t → exec i { s with rot := r } = .next { t with rot := r }

/-- Every pixel a host operation other than INIT changes lies in the window it leaves, and but for FLUSH no
operation takes a pixel out of the window: what the flush sends covers every change (R25, R83). INIT is left out
because it flushes. -/
def Obligations.WindowCoversEveryChangedPixel : Prop :=
  ∀ (i : Instr) (s t : State), i.op ≠ none → i ≠ .init → WindowOk s → s.fb.wf → exec i s = .next t →
    (∀ px py, px < s.par.width → py < s.par.height → pixel t px py ≠ pixel s px py → inWindow t.win px py) ∧
    (i ≠ .flush → ∀ px py, inWindow s.win px py → inWindow t.win px py)

/-! ## Pixels and fills -/

/-- SETPIXEL (R131): out of the logical bounds nothing, in them one bit of one byte and the window folded with the
pixel, changed or not. -/
def Obligations.SetpixelWritesItsPixel : Prop :=
  ∀ (s : State) (x y : Int) (mode : Mode), s.lstate ≠ .hardwareReleased → s.fb.wf →
    ∃ t, exec (.setpixel x y mode) s = .next t ∧ SameButCanvas s t ∧
      (¬ (0 ≤ x ∧ x < logicalWidth s ∧ 0 ≤ y ∧ y < logicalHeight s) → t.fb = s.fb ∧ t.win = s.win) ∧
      (0 ≤ x → x < logicalWidth s → 0 ≤ y → y < logicalHeight s →
        ∃ px py : Nat, ((px : Int), (py : Int)) = xform s.par.width s.par.height s.rot x y ∧
          px < s.par.width ∧ py < s.par.height ∧ pixel t px py = modeBit mode (pixel s px py) ∧
          (∀ a b, b < 8 → ¬ (a = px + py / 8 * s.par.width ∧ b = py % 8) → fbBit t a b = fbBit s a b) ∧
          t.win = { x1 := min s.win.x1 px, y1 := min s.win.y1 py, x2 := max s.win.x2 px, y2 := max s.win.y2 py })

/-- GETPIXEL (R133): the pixel's value on the result port, 0 out of bounds; nothing else changes. -/
def Obligations.GetpixelReadsItsPixel : Prop :=
  ∀ (s : State) (x y : Int), s.lstate ≠ .hardwareReleased →
    ∃ v : Byte, exec (.getpixel x y) s = .next { s with result := v, status := .ok, seq := Seq.idle } ∧
      (¬ (0 ≤ x ∧ x < logicalWidth s ∧ 0 ≤ y ∧ y < logicalHeight s) → v = 0) ∧
      (0 ≤ x → x < logicalWidth s → 0 ≤ y → y < logicalHeight s →
        ∃ px py : Nat, ((px : Int), (py : Int)) = xform s.par.width s.par.height s.rot x y ∧
          v = if pixel s px py then 1 else 0)

/-- R134: SETPIXEL then GETPIXEL round-trips at every rotation and every logical point in bounds. -/
def Obligations.PixelsRoundTripAtEveryRotation : Prop :=
  ∀ (s : State) (x y : Int), s.lstate ≠ .hardwareReleased → s.fb.wf → 0 ≤ x → x < logicalWidth s → 0 ≤ y →
    y < logicalHeight s →
    (∃ t, execAll [.setpixel x y .set, .getpixel x y] s = .next t ∧ t.result = 1) ∧
    (∃ t, execAll [.setpixel x y .clear, .getpixel x y] s = .next t ∧ t.result = 0)

/-- FILL SET and FILL CLEAR (R135): every byte of the buffer, padding bits and all, no byte outside it, and the
whole panel dirty; after FILL SET every in-bounds GETPIXEL answers 1, after FILL CLEAR 0, at every rotation. -/
def Obligations.FillSetsEveryByteAndDirtiesThePanel : Prop :=
  ∀ s : State, s.lstate ≠ .hardwareReleased → WindowOk s → 1 ≤ s.par.width → 1 ≤ s.par.height →
    ∀ mode, mode = .set ∨ mode = .clear →
    ∃ t, exec (.fill mode) s = .next t ∧ SameButCanvas s t ∧
      (∀ a, a < s.par.width * ((s.par.height + 7) / 8) → t.fb.read a = if mode = .set then 0xFF else 0x00) ∧
      (∀ a, s.par.width * ((s.par.height + 7) / 8) ≤ a → t.fb.read a = s.fb.read a) ∧
      t.win = { x1 := 0, y1 := 0, x2 := s.par.width - 1, y2 := s.par.height - 1 } ∧
      ∀ x y : Int, 0 ≤ x → x < logicalWidth s → 0 ≤ y → y < logicalHeight s →
        ∃ u, exec (.getpixel x y) t = .next u ∧ u.result = if mode = .set then 1 else 0

/-- RDBUF (R137): the byte at the index, nothing else changed. -/
def Obligations.RdbufReadsItsByte : Prop :=
  ∀ (s : State) (n : Nat), s.lstate ≠ .hardwareReleased → n < s.par.width * ((s.par.height + 7) / 8) →
    exec (.rdbuf n) s = .next { s with result := s.fb.read n, status := .ok, seq := Seq.idle }

/-! ## Geometry and spans -/

/-- R161, R162: the logical dimensions, and where `Xform` takes every point, at each rotation. -/
def Obligations.RotationTablesAreTheSpecs : Prop :=
  (∀ s : State,
    (s.rot = .r0 ∨ s.rot = .r2 → logicalWidth s = s.par.width ∧ logicalHeight s = s.par.height) ∧
    (s.rot = .r1 ∨ s.rot = .r3 → logicalWidth s = s.par.height ∧ logicalHeight s = s.par.width)) ∧
  ∀ (w h : Nat) (x y : Int),
    xform w h .r0 x y = (x, y) ∧ xform w h .r1 x y = (w - 1 - y, x) ∧
    xform w h .r2 x y = (w - 1 - x, h - 1 - y) ∧ xform w h .r3 x y = (y, h - 1 - x)

/-- R163: at every rotation `Xform` is a bijection from the logical rectangle onto the physical one, and takes
points outside the first to points outside the second. -/
def Obligations.XformIsABijectionOfThePanel : Prop :=
  ∀ s : State,
    let f := fun p : Int × Int => xform s.par.width s.par.height s.rot p.1 p.2
    let logical := fun p : Int × Int => 0 ≤ p.1 ∧ p.1 < logicalWidth s ∧ 0 ≤ p.2 ∧ p.2 < logicalHeight s
    let panel := fun p : Int × Int => 0 ≤ p.1 ∧ p.1 < s.par.width ∧ 0 ≤ p.2 ∧ p.2 < s.par.height
    (∀ p, logical p ↔ panel (f p)) ∧ (∀ p q, f p = f q → p = q) ∧ ∀ q, panel q → ∃ p, logical p ∧ f p = q

/-- R170: the span table, and that the transformed span covers exactly the images of the span's pixels. -/
def Obligations.XformSpanCoversTheImages : Prop :=
  ∀ (w h : Nat) (x y len : Int), 1 ≤ len →
    let sp := fun (d : Dir) (a b : Int) => ({ dir := d, x := a, y := b, len := len } : Span)
    xformSpan w h .r0 (sp .horizontal x y) = sp .horizontal x y ∧
    xformSpan w h .r0 (sp .vertical x y) = sp .vertical x y ∧
    xformSpan w h .r1 (sp .horizontal x y) = sp .vertical (w - 1 - y) x ∧
    xformSpan w h .r1 (sp .vertical x y) = sp .horizontal (w - 1 - y - (len - 1)) x ∧
    xformSpan w h .r2 (sp .horizontal x y) = sp .horizontal (w - 1 - x - (len - 1)) (h - 1 - y) ∧
    xformSpan w h .r2 (sp .vertical x y) = sp .vertical (w - 1 - x) (h - 1 - y - (len - 1)) ∧
    xformSpan w h .r3 (sp .horizontal x y) = sp .vertical y (h - 1 - x - (len - 1)) ∧
    xformSpan w h .r3 (sp .vertical x y) = sp .horizontal y (h - 1 - x) ∧
    ∀ (r : Rot) (d : Dir) (px py : Int),
      (xformSpan w h r (sp d x y)).covers px py ↔ ∃ lx ly, (sp d x y).covers lx ly ∧ xform w h r lx ly = (px, py)

/-- PRESETUP (R244) has no effect but its completion, RELEASE (R246) moves `LSTATE` alone, SETROTATION (R165) writes
`ROT` alone: no pixel moves, nothing becomes dirty. -/
def Obligations.PresetupReleaseAndSetrotationTouchNothingElse : Prop :=
  ∀ s : State,
    (s.lstate = .uninitialized → ∃ t, exec .presetup s = .next t ∧
      t = { s with status := .ok, seq := Seq.idle, result := t.result, freeIdx := t.freeIdx }) ∧
    (s.lstate = .poweredOff → ∃ t, exec .release s = .next t ∧
      t = { s with
        lstate := .hardwareReleased, status := .ok, seq := Seq.idle, result := t.result, freeIdx := t.freeIdx }) ∧
    ∀ r : Rot, s.lstate ≠ .hardwareReleased → ∃ t, exec (.setrotation r) s = .next t ∧
      t = { s with rot := r, status := .ok, seq := Seq.idle, result := t.result, freeIdx := t.freeIdx }

/-- Clipping (R181, R186) keeps exactly the part of the run that is on the panel, and answers nothing exactly when
there is none. -/
def Obligations.ClippingKeepsExactlyThePartOnThePanel : Prop :=
  ∀ (w h : Nat) (x y len : Int),
    (∀ a r n, hClip w h x y len = some (a, r, n) → (r : Int) = y ∧ r < h ∧ 1 ≤ n ∧
      ∀ p : Int, ((a : Int) ≤ p ∧ p < a + n) ↔ (x ≤ p ∧ p < x + len ∧ 0 ≤ p ∧ p < w)) ∧
    (hClip w h x y len = none ↔ ∀ p : Int, ¬ (x ≤ p ∧ p < x + len ∧ 0 ≤ p ∧ p < w ∧ 0 ≤ y ∧ y < h)) ∧
    (∀ c a n, vClip w h x y len = some (c, a, n) → (c : Int) = x ∧ c < w ∧ 1 ≤ n ∧
      ∀ p : Int, ((a : Int) ≤ p ∧ p < a + n) ↔ (y ≤ p ∧ p < y + len ∧ 0 ≤ p ∧ p < h)) ∧
    (vClip w h x y len = none ↔ ∀ p : Int, ¬ (y ≤ p ∧ p < y + len ∧ 0 ≤ p ∧ p < h ∧ 0 ≤ x ∧ x < w))

/-- HSPAN (R183): with `HClip` ok, each pixel of the clipped run is set, cleared or inverted, no other bit of any
byte changes, and the window is folded once with the clipped run; with `HClip` not ok nothing is written. -/
def Obligations.HspanWritesExactlyItsClippedPixels : Prop :=
  ∀ (s : State) (x y len : Int) (mode : Mode), s.lstate ≠ .hardwareReleased → s.fb.wf →
    ∃ t, exec (.hspan x y len mode) s = .next t ∧ SameButCanvas s t ∧
      (hClip s.par.width s.par.height x y len = none → t.fb = s.fb ∧ t.win = s.win) ∧
      (∀ a r n, hClip s.par.width s.par.height x y len = some (a, r, n) →
        (∀ i, i < n → pixel t (a + i) r = modeBit mode (pixel s (a + i) r)) ∧
        (∀ k b, b < 8 → (∀ i, i < n → ¬ (k = a + i + r / 8 * s.par.width ∧ b = r % 8)) → fbBit t k b = fbBit s k b) ∧
        t.win = { x1 := min s.win.x1 a, y1 := min s.win.y1 r, x2 := max s.win.x2 (a + n - 1), y2 := max s.win.y2 r })

/-- The three-region write of R188 has the effect R187 states per bit: in column `x` the rows `y` to `y+len-1`
change, every other bit of every byte keeps its value. -/
def Obligations.VerticalWriteChangesExactlyItsRows : Prop :=
  ∀ (w h x y len : Nat) (mode : Mode) (m : Memory), m.wf → x < w → 1 ≤ len → y + len ≤ h →
    (∀ r, y ≤ r → r < y + len → ((vWrite w mode x y len m).read (x + r / 8 * w)).getLsbD (r % 8) =
      modeBit mode ((m.read (x + r / 8 * w)).getLsbD (r % 8))) ∧
    (∀ a b, b < 8 → (∀ r, y ≤ r → r < y + len → ¬ (a = x + r / 8 * w ∧ b = r % 8)) →
      ((vWrite w mode x y len m).read a).getLsbD b = (m.read a).getLsbD b)

/-- VSPAN (R185, R189): with `VClip` ok, each pixel of the clipped run is set, cleared or inverted, no other bit of
any byte changes, and the window is folded once with the clipped run; otherwise nothing is written. -/
def Obligations.VspanWritesExactlyItsClippedPixels : Prop :=
  ∀ (s : State) (x y len : Int) (mode : Mode), s.lstate ≠ .hardwareReleased → s.fb.wf →
    ∃ t, exec (.vspan x y len mode) s = .next t ∧ SameButCanvas s t ∧
      (vClip s.par.width s.par.height x y len = none → t.fb = s.fb ∧ t.win = s.win) ∧
      (∀ c a n, vClip s.par.width s.par.height x y len = some (c, a, n) →
        (∀ i, i < n → pixel t c (a + i) = modeBit mode (pixel s c (a + i))) ∧
        (∀ k b, b < 8 → (∀ i, i < n → ¬ (k = c + (a + i) / 8 * s.par.width ∧ b = (a + i) % 8)) →
          fbBit t k b = fbBit s k b) ∧
        t.win = { x1 := min s.win.x1 c, y1 := min s.win.y1 a, x2 := max s.win.x2 c, y2 := max s.win.y2 (a + n - 1) })

/-- R174: LHSPAN has the effect on framebuffer and window of the SETPIXELs of its pixels, in any order, at every
rotation; LVSPAN likewise. -/
def Obligations.LogicalSpansEqualTheirPixels : Prop :=
  ∀ (s : State) (x y len : Int) (mode : Mode) (l : List Nat), s.lstate ≠ .hardwareReleased → s.fb.wf →
    l.Perm (List.range len.toNat) →
    (∃ t u, exec (.lhspan x y len mode) s = .next t ∧ SameButCanvas s t ∧
      execAll (l.map fun (i : Nat) => .setpixel (x + i) y mode) s = .next u ∧ t.fb = u.fb ∧ t.win = u.win) ∧
    (∃ t u, exec (.lvspan x y len mode) s = .next t ∧ SameButCanvas s t ∧
      execAll (l.map fun (i : Nat) => .setpixel x (y + i) mode) s = .next u ∧ t.fb = u.fb ∧ t.win = u.win)

/-! ## The bus -/

/-- FLUSH with an empty window (R202): no bus traffic, no register changed, completed. -/
def Obligations.FlushOfAnEmptyWindowSendsNothing : Prop :=
  ∀ s : State, s.lstate = .poweredOff ∨ s.lstate = .active → isEmpty s = true →
    ∃ t, exec .flush s = .next t ∧
      t = { s with status := .ok, seq := Seq.idle, result := t.result, freeIdx := t.freeIdx }

/-- FLUSH with every transaction answered `ok` (R203 to R206): exactly the events of the rule, in order, and the
window reset; nothing else changes. -/
def Obligations.FlushSendsTheWindowAndResetsIt : Prop :=
  ∀ s : State, s.lstate = .poweredOff ∨ s.lstate = .active → windowInPanel s → answersOk s (flushEvents s) = true →
    ∃ t, exec .flush s = .next t ∧
      CompletedBus { s with win := { x1 := s.par.width, y1 := s.par.height, x2 := 0, y2 := 0 } } (flushEvents s) t

/-- A failing flush (R208): the transactions before the failing one and the failing one are in the trace, no later
one is, the window and the framebuffer keep their values, so that the next flush sends the whole window again. That what is
under way of the failing transaction is its leading bytes is log 8 (DESIGN CHOICE). -/
def Obligations.FailedFlushKeepsTheWindow : Prop :=
  ∀ (s : State) (evs : List Event) (x : Txn), s.lstate = .poweredOff ∨ s.lstate = .active → windowInPanel s →
    (evs ++ [.bus x .ok]) <+: flushEvents s → answersOk s evs = true → answerOf (after s evs) x = .fail →
    ∃ t, exec .flush s = .next t ∧ AbortedBus s evs x t ∧ flushEvents t = flushEvents s

/-- R207: a FLUSH that completes with a window of `N` pages and `C` columns has appended `3N` one-byte commands and `N`
bursts of `C` bytes to the trace and nothing else, in the order page, low, high, data. -/
def Obligations.FlushHasItsCountedSize : Prop :=
  ∀ s t : State, s.lstate = .poweredOff ∨ s.lstate = .active → windowInPanel s → exec .flush s = .next t →
    t.status = .ok →
    ∃ evs, t.trace = s.trace ++ evs ∧ evs.length = 4 * (s.win.y2 / 8 - s.win.y1 / 8 + 1) ∧
      ∀ k, k < s.win.y2 / 8 - s.win.y1 / 8 + 1 →
        ∃ b0 b1 b2 bytes,
          evs[4 * k]? = some (okCmd b0 []) ∧ evs[4 * k + 1]? = some (okCmd b1 []) ∧
          evs[4 * k + 2]? = some (okCmd b2 []) ∧ evs[4 * k + 3]? = some (.bus (.data bytes) .ok) ∧
          bytes.length = s.win.x2 - s.win.x1 + 1

/-- R209 (b): from a clean window a full-width LHSPAN leaves one page and every column to flush at rotations 0 and
2, and every page and one column at rotations 1 and 3. -/
def Obligations.FullWidthSpanDirtiesThePagesOfItsRotation : Prop :=
  ∀ (s : State) (y : Int) (mode : Mode), s.lstate ≠ .hardwareReleased → 1 ≤ s.par.width → 1 ≤ s.par.height →
    windowEmpty s → 0 ≤ y → y < logicalHeight s →
    ∃ t, exec (.lhspan 0 y (logicalWidth s) mode) s = .next t ∧
      (s.rot = .r0 ∨ s.rot = .r2 → t.win.y1 / 8 = t.win.y2 / 8 ∧ t.win.x1 = 0 ∧ t.win.x2 = s.par.width - 1) ∧
      (s.rot = .r1 ∨ s.rot = .r3 → t.win.x1 = t.win.x2 ∧
        t.win.y2 / 8 - t.win.y1 / 8 + 1 = (s.par.height + 7) / 8)

/-- SETPOWER, SETINVERT, SETCONTRAST, RAWCMD and SHUTDOWN with every transaction answered `ok` (R210 to R213,
R245): the commands of each, and the register each writes. -/
def Obligations.CommandOperationsSendTheirCommands : Prop :=
  ∀ s : State, s.lstate = .poweredOff ∨ s.lstate = .active →
    (answersOk s [okCmd s.par.cmds.displayAllOnResume [], okCmd s.par.cmds.displayOn []] = true →
      ∃ t, exec (.setpower true) s = .next t ∧
        CompletedBus s [okCmd s.par.cmds.displayAllOnResume [], okCmd s.par.cmds.displayOn []] t) ∧
    (answersOk s [okCmd s.par.cmds.displayOff []] = true →
      ∃ t, exec (.setpower false) s = .next t ∧ CompletedBus s [okCmd s.par.cmds.displayOff []] t) ∧
    (answersOk s [okCmd s.par.cmds.invertDisplay []] = true →
      ∃ t, exec (.setinvert true) s = .next t ∧
        CompletedBus { s with inv := true } [okCmd s.par.cmds.invertDisplay []] t) ∧
    (answersOk s [okCmd s.par.cmds.normalDisplay []] = true →
      ∃ t, exec (.setinvert false) s = .next t ∧
        CompletedBus { s with inv := false } [okCmd s.par.cmds.normalDisplay []] t) ∧
    (∀ v, answersOk s [okCmd s.par.cmds.setContrast [v]] = true →
      ∃ t, exec (.setcontrast v) s = .next t ∧
        CompletedBus { s with contrast := v } [okCmd s.par.cmds.setContrast [v]] t) ∧
    (∀ c args, answersOk s [okCmd c args] = true →
      ∃ t, exec (.rawcmd c args) s = .next t ∧ CompletedBus s [okCmd c args] t) ∧
    (answersOk s [okCmd s.par.cmds.displayOff []] = true →
      ∃ t, exec .shutdown s = .next t ∧
        CompletedBus { s with lstate := .poweredOff } [okCmd s.par.cmds.displayOff []] t)

/-- The same operations when their first transaction fails (R266): `INV` and `CONTRAST` hold the new value,
`LSTATE` is unchanged, the second command of the power-on pair is not sent. That what is under way of the failed
transaction is its leading bytes is log 8 (DESIGN CHOICE). -/
def Obligations.CommandOperationsAbortOnFailure : Prop :=
  ∀ s : State, s.lstate = .poweredOff ∨ s.lstate = .active →
    (answerOf s (.cmd s.par.cmds.displayAllOnResume []) = .fail →
      ∃ t, exec (.setpower true) s = .next t ∧ AbortedBus s [] (.cmd s.par.cmds.displayAllOnResume []) t) ∧
    (answersOk s [okCmd s.par.cmds.displayAllOnResume []] = true →
      answerOf (after s [okCmd s.par.cmds.displayAllOnResume []]) (.cmd s.par.cmds.displayOn []) = .fail →
      ∃ t, exec (.setpower true) s = .next t ∧
        AbortedBus s [okCmd s.par.cmds.displayAllOnResume []] (.cmd s.par.cmds.displayOn []) t) ∧
    (answerOf s (.cmd s.par.cmds.displayOff []) = .fail →
      (∃ t, exec (.setpower false) s = .next t ∧ AbortedBus s [] (.cmd s.par.cmds.displayOff []) t) ∧
      (∃ t, exec .shutdown s = .next t ∧ AbortedBus s [] (.cmd s.par.cmds.displayOff []) t)) ∧
    (answerOf s (.cmd s.par.cmds.invertDisplay []) = .fail →
      ∃ t, exec (.setinvert true) s = .next t ∧
        AbortedBus { s with inv := true } [] (.cmd s.par.cmds.invertDisplay []) t) ∧
    (answerOf s (.cmd s.par.cmds.normalDisplay []) = .fail →
      ∃ t, exec (.setinvert false) s = .next t ∧
        AbortedBus { s with inv := false } [] (.cmd s.par.cmds.normalDisplay []) t) ∧
    (∀ v, answerOf s (.cmd s.par.cmds.setContrast [v]) = .fail →
      ∃ t, exec (.setcontrast v) s = .next t ∧
        AbortedBus { s with contrast := v } [] (.cmd s.par.cmds.setContrast [v]) t) ∧
    (∀ c args, answerOf s (.cmd c args) = .fail →
      ∃ t, exec (.rawcmd c args) s = .next t ∧ AbortedBus s [] (.cmd c args) t)

/-! ## Lifecycle -/

/-- INIT with a splash asset (R240, R241): SETPIXELs of the asset's 1 bits, row by row, at `SPLASH.x0 + i`,
`SPLASH.y0 + j` under the configured rotation, after FILL CLEAR if the splash clears first, reach the framebuffer INIT
leaves and the window step 17 sends, which is what stands where step 17 fails; so a pixel is on exactly where a 1 bit
fell on it, or where it was on and the splash does not clear. The form of the asset and of the selection is log 12, where
the delays stand log 17. -/
def Obligations.SplashBlitIsItsSetpixels : Prop :=
  ∀ (s : State) (sp : Splash) (a : Asset), s.lstate ≠ .hardwareReleased → s.par.inRange = true → WindowOk s →
    s.fb.wf → SplashAssetIs s.par sp a →
    ∃ u, execAll ((if sp.clearsFirst then [.fill .clear] else []) ++
        (List.range a.h).flatMap fun j => (List.range a.w).flatMap fun i =>
          if a.bits.getD (j * a.w + i) false then [.setpixel (sp.x0 + i) (sp.y0 + j) .set] else [])
        { s with rot := s.par.cfgRotation } = .next u ∧
      (∀ px py : Nat, px < s.par.width → py < s.par.height → (pixel u px py = true ↔
        (∃ i j : Nat, i < a.w ∧ j < a.h ∧ a.bits.getD (j * a.w + i) false = true ∧
          xform s.par.width s.par.height s.par.cfgRotation (sp.x0 + i) (sp.y0 + j) = ((px : Int), (py : Int))) ∨
        (sp.clearsFirst = false ∧ pixel s px py = true))) ∧
      (∀ t, exec .init s = .next t → t.status = .ok → t.fb = u.fb ∧
        t.trace = s.trace ++ (initConfigSteps s.par ++
          initStepEvents s.par 17 (if isEmpty u then [] else flushEvents u) ++ initPowerSteps s.par).map Prod.snd) ∧
      ∀ t evs x, exec .init s = .next t →
        t.trace = s.trace ++ (initConfigSteps s.par).map Prod.snd ++ evs ++ [.bus x .fail] →
        (evs ++ [.bus x .ok]) <+: (if isEmpty u then [] else flushEvents u) → t.fb = u.fb ∧ t.win = u.win

/-- INIT with every transaction answered `ok` (R231 to R234, R236 to R241): the whole trace of the table, the registers
it writes, the framebuffer of step 16 and the empty window; nothing else changes. Where a delay named for a step that
issues no command stands is log 17 (DEDUCED). After a failed INIT it starts from a controller of which nothing is known,
with nothing under way (R267; log 8). -/
def Obligations.InitRunsItsTable : Prop :=
  ∀ s : State, s.lstate ≠ .hardwareReleased → s.par.inRange = true → WindowOk s →
    answersOk s (initEvents s) = true →
    ∃ t, exec .init s = .next t ∧ (s.ctlLost = false → t.ctl = s.ctl) ∧
      CompletedBus { s with
        lstate := .active, muxratio := BitVec.ofNat 8 (s.par.height - 1)
        compins := (profile s.par.width s.par.height).1, contrast := (profile s.par.width s.par.height).2
        inv := false, rot := s.par.cfgRotation, fb := (initDrawn s).fb
        win := { x1 := s.par.width, y1 := s.par.height, x2 := 0, y2 := 0 }
        wire := if s.ctlLost then [] else s.wire, ctl := t.ctl, ctlLost := false } (initEvents s) t

/-- INIT whose transaction of step `k` fails (R242 and the last row of R266): what the steps before have written,
what they have not, and `LSTATE` PoweredOff. The controller is indeterminate (R59), in the model's form, which is log 8
(DESIGN CHOICE): marked as lost, its state free, nothing under way. Where the delays stand is log 17 (DEDUCED). -/
def Obligations.FailedInitLeavesTheTabledState : Prop :=
  ∀ (s : State) (pre : List (Nat × Event)) (k : Nat) (x : Txn), s.lstate ≠ .hardwareReleased →
    s.par.inRange = true → WindowOk s → (pre ++ [(k, .bus x .ok)]) <+: initSteps s →
    answersOk s (pre.map Prod.snd) = true → answerOf (after s (pre.map Prod.snd)) x = .fail →
    ∃ t, exec .init s = .next t ∧
      t = { s with
        lstate := .poweredOff, status := .transportError, seq := Seq.idle
        trace := s.trace ++ pre.map Prod.snd ++ [.bus x .fail]
        answers := s.answers.drop ((txnsOf (pre.map Prod.snd)).length + 1)
        ctl := t.ctl, ctlLost := true, wire := [], result := t.result, freeIdx := t.freeIdx
        muxratio := if 3 ≤ k then BitVec.ofNat 8 (s.par.height - 1) else s.muxratio
        compins := if 9 ≤ k then (profile s.par.width s.par.height).1 else s.compins
        contrast := if 9 ≤ k then (profile s.par.width s.par.height).2 else s.contrast
        inv := if 14 ≤ k then false else s.inv
        rot := if 17 ≤ k then s.par.cfgRotation else s.rot
        fb := if 17 ≤ k then (initDrawn s).fb else s.fb
        win := if 18 ≤ k then { x1 := s.par.width, y1 := s.par.height, x2 := 0, y2 := 0 }
          else if k = 17 then (initDrawn s).win else s.win }

/-- INIT without a splash asset (R240, R241, R248), NOSPLASH or absent: it leaves the framebuffer zero in every byte,
and step 17 has sent every page of the panel, each as a burst of `WIDTH` zero bytes, after the configuration and before
the power-on pair. Where the delays stand is log 17 (DEDUCED). -/
def Obligations.NoSplashInitSendsAZeroedPanel : Prop :=
  ∀ s t : State, s.lstate ≠ .hardwareReleased → s.par.inRange = true → WindowOk s → NoSplashAsset s.par →
    exec .init s = .next t → t.status = .ok →
    (∀ a, a < s.par.width * ((s.par.height + 7) / 8) → t.fb.read a = 0) ∧
    t.trace = s.trace ++ (initConfigSteps s.par ++ initStepEvents s.par 17 (zeroPanelEvents s.par) ++
      initPowerSteps s.par).map Prod.snd

/-! ## The controller -/

/-- The pointer commands of the reference consumer (R77), with everything else unchanged. -/
def Obligations.PointerCommandsMoveThePointers : Prop :=
  ∀ (s : State) (f : BitVec 4),
    (∃ p : BitVec 3, p.toNat = f.toNat % 8 ∧ exec (.cmdPageAddr f) s = .next { s with ctl := { s.ctl with pp := p } }) ∧
    (∃ c : Byte, c.toNat = s.ctl.cp.toNat / 16 * 16 + f.toNat ∧
      exec (.cmdSetLowColumn f) s = .next { s with ctl := { s.ctl with cp := c } }) ∧
    (∃ c : Byte, c.toNat = f.toNat * 16 + s.ctl.cp.toNat % 16 ∧
      exec (.cmdSetHighColumn f) s = .next { s with ctl := { s.ctl with cp := c } })

/-- Every other controller command leaves the RAM and the pointers, and everything of FBP (R58, R77); the one
setting it makes is the model's reading of its name (log 6, DEDUCED). -/
def Obligations.SettingCommandsMakeTheirSettingAlone : Prop :=
  ∀ (s : State) (v : Byte) (l : BitVec 6),
    exec (.cmdSetStartLine l) s = .next { s with ctl := { s.ctl with startLine := l } } ∧
    exec (.cmdSetContrast v) s = .next { s with ctl := { s.ctl with contrast := v } } ∧
    exec (.cmdChargePump v) s = .next { s with ctl := { s.ctl with chargePump := v } } ∧
    exec (.cmdSetMultiplex v) s = .next { s with ctl := { s.ctl with multiplex := v } } ∧
    exec (.cmdSetDisplayOffset v) s = .next { s with ctl := { s.ctl with displayOffset := v } } ∧
    exec (.cmdSetDisplayClockDiv v) s = .next { s with ctl := { s.ctl with clockDiv := v } } ∧
    exec (.cmdSetPrecharge v) s = .next { s with ctl := { s.ctl with precharge := v } } ∧
    exec (.cmdSetComPins v) s = .next { s with ctl := { s.ctl with comPins := v } } ∧
    exec (.cmdSetVcomDetect v) s = .next { s with ctl := { s.ctl with vcomDetect := v } } ∧
    exec .cmdSegRemapFixed s = .next { s with ctl := { s.ctl with segRemapSet := true } } ∧
    exec .cmdComScanFixed s = .next { s with ctl := { s.ctl with comScanSet := true } } ∧
    exec .cmdDisplayAllOnResume s = .next { s with ctl := { s.ctl with showsRam := true } } ∧
    exec .cmdNormalDisplay s = .next { s with ctl := { s.ctl with inverted := false } } ∧
    exec .cmdInvertDisplay s = .next { s with ctl := { s.ctl with inverted := true } } ∧
    exec .cmdDisplayOff s = .next { s with ctl := { s.ctl with displayOn := false } } ∧
    exec .cmdDisplayOn s = .next { s with ctl := { s.ctl with displayOn := true } }

/-- A data burst at the controller (R77): byte `k` goes to column `CP + k` of page `PP` while that is at most 131,
later bytes are dropped, no other RAM byte changes, and the column pointer has moved past the stored bytes. R77 is
general knowledge (log 5), and whose turn it is is the model's rule (log 7). -/
def Obligations.DataBurstFillsConsecutiveColumns : Prop :=
  ∀ (s : State) (bytes : List Byte) (rest : List Txn), s.ctl.ram.wf → s.ctlLost = false →
    s.turns.head? = some .controller ∨ s.turns = [] → s.wire = .data bytes :: rest →
    ∃ t, step s = .next t ∧
      t = { s with
        turns := s.turns.tail, wire := rest, ctl := { s.ctl with ram := t.ctl.ram, cp := t.ctl.cp } } ∧
      (∀ k v, bytes[k]? = some v → s.ctl.cp.toNat + k ≤ 131 →
        t.ctl.ram.read (s.ctl.pp.toNat * 132 + (s.ctl.cp.toNat + k)) = v) ∧
      (∀ a, (∀ k, k < bytes.length → s.ctl.cp.toNat + k ≤ 131 → a ≠ s.ctl.pp.toNat * 132 + (s.ctl.cp.toNat + k)) →
        t.ctl.ram.read a = s.ctl.ram.read a) ∧
      t.ctl.cp.toNat = max s.ctl.cp.toNat (min (s.ctl.cp.toNat + bytes.length) 132)

/-- What a successful flush leaves in the controller's RAM once the controller has taken its transactions, for a
well-fitted configuration: every framebuffer byte of the window's pages and columns at its mapped place, every
other RAM byte as it was (R75, R83). The controller is the reference consumer of R77 (log 5), not lost by a failed INIT
(R267); that it takes what is under way next where no turn is named is log 7; a command set without ambiguous bytes is
assumed. -/
def Obligations.FlushedWindowReachesTheControllerRam : Prop :=
  ∀ s : State, Inv s → s.lstate = .poweredOff ∨ s.lstate = .active → windowInPanel s → s.par.wellFitted = true →
    s.par.cmds.unambiguous = true → s.ctlLost = false → s.wire = [] → s.turns = [] → answersOk s (flushEvents s) = true →
    ∃ t u, exec .flush s = .next t ∧ core.run (4 * (s.win.y2 / 8 - s.win.y1 / 8 + 1)) t = .next u ∧ u.wire = [] ∧
      (∀ x p, s.win.x1 ≤ x → x ≤ s.win.x2 → s.win.y1 / 8 ≤ p → p ≤ s.win.y2 / 8 →
        u.ctl.ram.read ((p + s.par.pageOffset.toNat) * 132 + (x + s.par.colOffset.toNat)) =
          s.fb.read (x + p * s.par.width)) ∧
      (∀ a, (∀ x p, s.win.x1 ≤ x → x ≤ s.win.x2 → s.win.y1 / 8 ≤ p → p ≤ s.win.y2 / 8 →
          a ≠ (p + s.par.pageOffset.toNat) * 132 + (x + s.par.colOffset.toNat)) →
        u.ctl.ram.read a = s.ctl.ram.read a)

/-! ## Steps -/

/-- When FBP is idle and it is its turn, a step runs the decoded word at the command port, latched into `OPW` (R26,
R96). Whose turn it is is the model's rule and not the spec's (log 7, DESIGN CHOICE): FBP moves where it is named, or
where no turn is named and nothing is under way to the controller. -/
def Obligations.StepRunsTheOperationPresented : Prop :=
  ∀ (s : State) (w : Word) (rest : List Word) (i : Instr), s.hostIn = w :: rest → s.seq.op = none →
    decodeHost w = .ok i → s.turns.head? = some .fbp ∨ (s.turns = [] ∧ s.wire = []) →
    step s = exec i { s with turns := s.turns.tail, hostIn := rest, opw := w }

/-- Every command the controller's step can find at the front of the bus (R77, R81): one that decodes runs; one whose
argument did not arrive runs with some argument; any other byte changes nothing ("All other commands leave `RAM`, `PP`,
`CP` unchanged"). After a failed INIT and before the next no transaction, command or data burst, has a defined effect
(R267), and only the controller changes. Bursts at a controller that is not lost are `DataBurstFillsConsecutiveColumns`;
with nothing under way the named turn passes. That the controller is this consumer under FBP's `CMDSET` is log 5 (PRESUMED), what bytes left over and a
missing argument do log 9, whose turn it is log 7, the form of the lost controller log 8 (all DESIGN CHOICE). -/
def Obligations.StepRunsTheCommandOnTheBus : Prop :=
  ∀ s : State, s.turns.head? = some .controller ∨ s.turns = [] →
    (∀ c args rest, s.wire = .cmd c args :: rest → s.ctlLost = false →
      (∀ i left, decodeBus s.par.cmds (c :: args) = .ok (i, left) →
        step s = exec i { s with turns := s.turns.tail, wire := rest }) ∧
      (decodeBus s.par.cmds (c :: args) = .error .argumentMissing →
        ∃ arg i n, decodeBus s.par.cmds [c, arg] = .ok (i, []) ∧
          step s = exec i { s with turns := s.turns.tail, wire := rest, freeIdx := n }) ∧
      (decodeBus s.par.cmds (c :: args) = .error .unknownByte →
        step s = .next { s with turns := s.turns.tail, wire := rest })) ∧
    (∀ txn rest, s.wire = txn :: rest → s.ctlLost = true →
      ∃ t, step s = .next t ∧
        t = { s with turns := s.turns.tail, wire := rest, ctl := t.ctl, freeIdx := t.freeIdx }) ∧
    (s.wire = [] → s.turns.head? = some .controller → step s = .next { s with turns := s.turns.tail })

/-- At FBP's turn: with no word FBP stays idle (R292), a word presented while BUSY has no effect (R96, R300), and an
illegal word changes nothing but `STATUS` and the refusal mark, the result port being unspecified (R98, R97; the mark
is log 4). Whose turn it is is the model's rule (log 7, DESIGN CHOICE). -/
def Obligations.StepWithoutALegalWordChangesNothing : Prop :=
  ∀ s : State, s.turns.head? = some .fbp ∨ (s.turns = [] ∧ s.wire = []) →
    (s.hostIn = [] → step s = .next { s with turns := s.turns.tail }) ∧
    (∀ w rest, s.hostIn = w :: rest → s.seq.op ≠ none →
      step s = .next { s with turns := s.turns.tail, hostIn := rest }) ∧
    (∀ w rest e, s.hostIn = w :: rest → s.seq.op = none → decodeHost w = .error e →
      ∃ t, step s = .next t ∧ SameButRefused { s with turns := s.turns.tail, hostIn := rest } t)

/-- The word of an opcode-table row, placed by `withFetchWord`, is the instruction the next step runs: an operation
of HOST in any state, a controller command where the command set is the table's (R111). That placing a word stands for
HOST presenting it, or for a command under way to a controller that is not lost, is log 15 (DESIGN CHOICE); that table
rows are read under `CMDSET_GK`, the argument in bits 15..8, is log 19 (PRESUMED). -/
def Obligations.PlacedTableWordIsTheNextInstruction : Prop :=
  ∀ (s : State) (w : Nat) (i : Instr),
    (decodeTableWord 64 w = some i →
      step (s.withFetchWord 64 w) = exec i { s with seq := Seq.idle, opw := BitVec.ofNat 64 w }) ∧
    (s.par.cmds = cmdSetGK → decodeTableWord 8 w = some i → step (s.withFetchWord 8 w) = exec i { s with ctlLost := false })
end

