-- ==== Sys2Proof/Laws/Memory.lean ====
section
/-! SUPPORT. Byte memories: a read after a write, and that every operation keeps the canonical form and the
address bound. -/

namespace Sys2Proof.Machine

@[simp] theorem Memory.read_nil (a : Nat) : Memory.read [] a = Memory.unlisted := rfl

theorem Memory.read_cons (c : Host.Cell) (m : Memory) (a : Nat) :
    Memory.read (c :: m) a = if c.1 = a then c.2 else Memory.read m a := rfl

/-- An address no entry lists reads as `unlisted`. -/
theorem Memory.read_unlisted {m : Memory} {a : Nat} (h : ∀ c ∈ m, c.1 ≠ a) : m.read a = Memory.unlisted := by
  induction m with
  | nil => rfl
  | cons c m ih =>
    rw [Memory.read_cons, if_neg (h c (by simp))]
    exact ih fun d hd => h d (by simp [hd])

theorem Memory.wf_nil : Memory.wf [] := by simp [Memory.wf]

theorem Memory.wf_cons {c : Host.Cell} {m : Memory} :
    Memory.wf (c :: m) ↔ (∀ d ∈ m, c.1 < d.1) ∧ c.2 ≠ Memory.unlisted ∧ m.wf := by
  simp only [Memory.wf, List.pairwise_cons, List.mem_cons, forall_eq_or_imp]
  tauto

theorem Memory.read_entry (a : Nat) (v : Byte) (m : Memory) (b : Nat) (h : ∀ c ∈ m, c.1 ≠ a) :
    (Memory.entry a v m).read b = if a = b then v else m.read b := by
  unfold Memory.entry
  split
  · next hv =>
    split
    · next hab => subst hab; rw [Memory.read_unlisted h, hv]
    · rfl
  · rfl

/-- A read after a write: the written byte at its address, the old byte everywhere else. -/
theorem Memory.read_write {m : Memory} (hm : m.wf) (a : Nat) (v : Byte) (b : Nat) :
    (m.write a v).read b = if a = b then v else m.read b := by
  induction m with
  | nil => simp [Memory.write, Memory.read_entry]
  | cons c m ih =>
    obtain ⟨hlt, _, hwf⟩ := Memory.wf_cons.1 hm
    simp only [Memory.write]
    split
    · rw [Memory.read_cons, ih hwf, Memory.read_cons]
      split_ifs <;> first | rfl | omega
    · split
      · next _ hca =>
        rw [Memory.read_entry _ _ _ _ fun d hd => by have := hlt d hd; omega, Memory.read_cons, hca]
        split_ifs <;> rfl
      · next h1 h2 =>
        exact Memory.read_entry _ _ _ _ fun d hd => by
          rcases List.mem_cons.1 hd with rfl | hd
          · omega
          · have := hlt d hd; omega

theorem Memory.read_write_same {m : Memory} (hm : m.wf) (a : Nat) (v : Byte) : (m.write a v).read a = v := by
  simp [Memory.read_write hm]

theorem Memory.read_write_other {m : Memory} (hm : m.wf) {a b : Nat} (h : a ≠ b) (v : Byte) :
    (m.write a v).read b = m.read b := by
  simp [Memory.read_write hm, h]

theorem Memory.mem_entry {a : Nat} {v : Byte} {m : Memory} {c : Host.Cell} (h : c ∈ Memory.entry a v m) :
    c = (a, v) ∨ c ∈ m := by
  unfold Memory.entry at h
  split at h
  · exact .inr h
  · simpa using h

theorem Memory.mem_write {m : Memory} {a : Nat} {v : Byte} {c : Host.Cell} (h : c ∈ m.write a v) :
    c.1 = a ∨ c ∈ m := by
  induction m with
  | nil => exact (Memory.mem_entry h).imp (congrArg Prod.fst) id
  | cons d m ih =>
    simp only [Memory.write] at h
    split at h
    · rcases List.mem_cons.1 h with rfl | h
      · simp
      · exact (ih h).imp id (List.mem_cons_of_mem d)
    · split at h
      · exact (Memory.mem_entry h).imp (congrArg Prod.fst) (List.mem_cons_of_mem d)
      · exact (Memory.mem_entry h).imp (congrArg Prod.fst) id

theorem Memory.entry_wf {a : Nat} {v : Byte} {m : Memory} (hm : m.wf) (h : ∀ c ∈ m, a < c.1) :
    (Memory.entry a v m).wf := by
  unfold Memory.entry
  split
  · exact hm
  · next hv => exact Memory.wf_cons.2 ⟨h, hv, hm⟩

/-- A write keeps the canonical form. -/
theorem Memory.write_wf {m : Memory} (hm : m.wf) (a : Nat) (v : Byte) : (m.write a v).wf := by
  induction m with
  | nil => exact Memory.entry_wf Memory.wf_nil (by simp)
  | cons c m ih =>
    obtain ⟨hlt, hc, hwf⟩ := Memory.wf_cons.1 hm
    simp only [Memory.write]
    split
    · next hca =>
      refine Memory.wf_cons.2 ⟨fun d hd => ?_, hc, ih hwf⟩
      rcases Memory.mem_write hd with h | h
      · omega
      · exact hlt d h
    · split
      · next _ hca => exact Memory.entry_wf hwf fun d hd => by have := hlt d hd; omega
      · refine Memory.entry_wf hm fun d hd => ?_
        rcases List.mem_cons.1 hd with rfl | hd
        · omega
        · have := hlt d hd; omega

/-- A write below the bound keeps the bound. -/
theorem Memory.write_below {m : Memory} {n : Nat} (hm : Memory.below n m) {a : Nat} (ha : a < n) (v : Byte) :
    Memory.below n (m.write a v) := fun c hc => by
  rcases Memory.mem_write hc with h | h
  · omega
  · exact hm c h

/-- Writing a list of addresses below `n` one after the other keeps the canonical form and the bound. -/
theorem Memory.foldl_write {n : Nat} (f : Nat → Byte) (as : List Nat) {m : Memory} (hm : m.wf)
    (hb : Memory.below n m) (ha : ∀ a ∈ as, a < n) :
    (as.foldl (fun m a => m.write a (f a)) m).wf ∧ Memory.below n (as.foldl (fun m a => m.write a (f a)) m) := by
  induction as generalizing m with
  | nil => exact ⟨hm, hb⟩
  | cons a as ih =>
    exact ih (Memory.write_wf hm a (f a)) (Memory.write_below hb (ha a (by simp)) (f a)) fun b h => ha b (by simp [h])

theorem Memory.read_append (m m' : Memory) (a : Nat) :
    Memory.read (m ++ m') a = if ∃ c ∈ m, c.1 = a then m.read a else m'.read a := by
  induction m with
  | nil => simp
  | cons c m ih =>
    rw [List.cons_append, Memory.read_cons, ih, Memory.read_cons]
    by_cases h : c.1 = a <;> simp [h]

theorem Memory.read_range (n a : Nat) (v : Byte) :
    Memory.read ((List.range n).map fun i => (i, v)) a = if a < n then v else Memory.unlisted := by
  induction n with
  | zero => simp
  | succ n ih =>
    rw [List.range_succ, List.map_append, Memory.read_append, ih]
    by_cases h : a < n
    · simp [h, Nat.lt_succ_of_lt h]
    · by_cases h' : a = n
      · subst h'
        simp [Memory.read_cons]
      · have : ¬ a < n + 1 := by omega
        have h2 : ¬ n = a := fun e => h' e.symm
        simp [h, this, h2, Memory.read_cons]

theorem Memory.read_filter_ge (m : Memory) (n a : Nat) (h : n ≤ a) :
    Memory.read (m.filter fun c => decide (n ≤ c.1)) a = m.read a := by
  induction m with
  | nil => rfl
  | cons c m ih =>
    rw [List.filter_cons, Memory.read_cons]
    split
    · rw [Memory.read_cons, ih]
    · next hc =>
      rw [ih, if_neg]
      intro e
      simp [e, h] at hc

/-- A read after a fill: the fill byte below the bound, the old byte from it on. -/
theorem Memory.read_fill (m : Memory) (n : Nat) (v : Byte) (a : Nat) :
    (m.fill n v).read a = if a < n then v else m.read a := by
  unfold Memory.fill
  rw [Memory.read_append]
  by_cases hv : v = Memory.unlisted
  · by_cases h : a < n
    · simp only [hv, if_true, h]
      rw [if_neg (by simp)]
      refine Memory.read_unlisted fun c hc => ?_
      have := (List.mem_filter.1 hc).2
      simp only [decide_eq_true_eq] at this
      omega
    · simp [hv, h, Memory.read_filter_ge m n a (by omega)]
  · by_cases h : a < n
    · simp [hv, h, Memory.read_range]
    · simp [hv, h, Memory.read_filter_ge m n a (by omega)]

/-- A fill keeps the canonical form. -/
theorem Memory.fill_wf {m : Memory} (hm : m.wf) (n : Nat) (v : Byte) : (m.fill n v).wf := by
  unfold Memory.fill
  have hf : Memory.wf (m.filter fun c => decide (n ≤ c.1)) :=
    ⟨hm.1.filter _, fun c hc => hm.2 c (List.mem_filter.1 hc).1⟩
  split
  · simpa using hf
  · next hv =>
    refine ⟨List.pairwise_append.2 ⟨?_, hf.1, ?_⟩, ?_⟩
    · exact List.pairwise_map.2 List.pairwise_lt_range
    · intro a ha b hb
      obtain ⟨i, hi, rfl⟩ := List.mem_map.1 ha
      have hb := (List.mem_filter.1 hb).2
      simp only [decide_eq_true_eq] at hb
      have := List.mem_range.1 hi
      simp only
      omega
    · intro c hc
      rcases List.mem_append.1 hc with h | h
      · obtain ⟨i, _, rfl⟩ := List.mem_map.1 h
        exact hv
      · exact hf.2 c h

/-- A fill up to the bound keeps the bound. -/
theorem Memory.fill_below {m : Memory} {n : Nat} (hm : Memory.below n m) (v : Byte) :
    Memory.below n (m.fill n v) := fun c hc => by
  unfold Memory.fill at hc
  rcases List.mem_append.1 hc with h | h
  · split at h
    · simp at h
    · obtain ⟨i, hi, rfl⟩ := List.mem_map.1 h
      exact List.mem_range.1 hi
  · exact hm c (List.mem_filter.1 h).1

theorem Memory.modify_wf {m : Memory} (hm : m.wf) (mode : Mode) (a : Nat) (b : Byte) : (m.modify mode a b).wf :=
  Memory.write_wf hm _ _

theorem Memory.modify_below {m : Memory} {n : Nat} (hm : Memory.below n m) (mode : Mode) {a : Nat} (ha : a < n)
    (b : Byte) : Memory.below n (m.modify mode a b) := Memory.write_below hm ha _

/-- A read after a read-modify-write. -/
theorem Memory.read_modify {m : Memory} (hm : m.wf) (mode : Mode) (a : Nat) (b : Byte) (c : Nat) :
    (m.modify mode a b).read c = if a = c then applyMode mode (m.read a) b else m.read c :=
  Memory.read_write hm _ _ _

/-- Canonical memories that read alike are equal data. -/
theorem Memory.ext_read {m m' : Memory} (hm : m.wf) (hm' : m'.wf) (h : ∀ a, m.read a = m'.read a) : m = m' := by
  induction m generalizing m' with
  | nil =>
    cases m' with
    | nil => rfl
    | cons c m' =>
      have := h c.1
      simp only [Memory.read_nil, Memory.read_cons, if_true] at this
      exact absurd this.symm (Memory.wf_cons.1 hm').2.1
  | cons c m ih =>
    obtain ⟨hlt, hc, hw⟩ := Memory.wf_cons.1 hm
    cases m' with
    | nil =>
      have := h c.1
      simp only [Memory.read_nil, Memory.read_cons, if_true] at this
      exact absurd this hc
    | cons d m' =>
      obtain ⟨hlt', hd, hw'⟩ := Memory.wf_cons.1 hm'
      have hcd : c.1 = d.1 := by
        rcases Nat.lt_trichotomy c.1 d.1 with l | e | l
        · have := h c.1
          rw [Memory.read_cons, if_pos rfl, Memory.read_unlisted] at this
          · exact absurd this hc
          · intro e he
            rcases List.mem_cons.1 he with rfl | he
            · omega
            · have := hlt' e he; omega
        · exact e
        · have := h d.1
          rw [Memory.read_cons (c := d), if_pos rfl, Memory.read_unlisted] at this
          · exact absurd this.symm hd
          · intro e he
            rcases List.mem_cons.1 he with rfl | he
            · omega
            · have := hlt e he; omega
      have hv : c.2 = d.2 := by
        have := h c.1
        rwa [Memory.read_cons, if_pos rfl, Memory.read_cons, if_pos hcd.symm] at this
      have hcell : c = d := Prod.ext hcd hv
      subst hcell
      congr 1
      refine ih hw hw' fun a => ?_
      by_cases e : c.1 = a
      · rw [Memory.read_unlisted, Memory.read_unlisted]
        · intro x hx; have := hlt' x hx; omega
        · intro x hx; have := hlt x hx; omega
      · have := h a
        rwa [Memory.read_cons, if_neg e, Memory.read_cons, if_neg e] at this

end Sys2Proof.Machine
end

