-- ==== Sys2Proof/Laws/State.lean ====
section
/-! SUPPORT. What each named update of State does to each field: one lemma per field per update. -/

namespace Sys2Proof.Machine

/-! ### expand -/

@[simp] theorem expand_par (x1 y1 x2 y2 : Nat) (s : State) : (expand x1 y1 x2 y2 s).par = s.par := rfl
@[simp] theorem expand_win (x1 y1 x2 y2 : Nat) (s : State) :
    (expand x1 y1 x2 y2 s).win = { x1 := min s.win.x1 x1, y1 := min s.win.y1 y1, x2 := max s.win.x2 x2, y2 := max s.win.y2 y2 } := rfl
@[simp] theorem expand_opw (x1 y1 x2 y2 : Nat) (s : State) : (expand x1 y1 x2 y2 s).opw = s.opw := rfl
@[simp] theorem expand_seq (x1 y1 x2 y2 : Nat) (s : State) : (expand x1 y1 x2 y2 s).seq = s.seq := rfl
@[simp] theorem expand_status (x1 y1 x2 y2 : Nat) (s : State) : (expand x1 y1 x2 y2 s).status = s.status := rfl
@[simp] theorem expand_result (x1 y1 x2 y2 : Nat) (s : State) : (expand x1 y1 x2 y2 s).result = s.result := rfl
@[simp] theorem expand_rot (x1 y1 x2 y2 : Nat) (s : State) : (expand x1 y1 x2 y2 s).rot = s.rot := rfl
@[simp] theorem expand_contrast (x1 y1 x2 y2 : Nat) (s : State) : (expand x1 y1 x2 y2 s).contrast = s.contrast := rfl
@[simp] theorem expand_compins (x1 y1 x2 y2 : Nat) (s : State) : (expand x1 y1 x2 y2 s).compins = s.compins := rfl
@[simp] theorem expand_muxratio (x1 y1 x2 y2 : Nat) (s : State) : (expand x1 y1 x2 y2 s).muxratio = s.muxratio := rfl
@[simp] theorem expand_inv (x1 y1 x2 y2 : Nat) (s : State) : (expand x1 y1 x2 y2 s).inv = s.inv := rfl
@[simp] theorem expand_lstate (x1 y1 x2 y2 : Nat) (s : State) : (expand x1 y1 x2 y2 s).lstate = s.lstate := rfl
@[simp] theorem expand_fb (x1 y1 x2 y2 : Nat) (s : State) : (expand x1 y1 x2 y2 s).fb = s.fb := rfl
@[simp] theorem expand_trace (x1 y1 x2 y2 : Nat) (s : State) : (expand x1 y1 x2 y2 s).trace = s.trace := rfl
@[simp] theorem expand_refusalMark (x1 y1 x2 y2 : Nat) (s : State) :
    (expand x1 y1 x2 y2 s).refusalMark = s.refusalMark := rfl
@[simp] theorem expand_freeIdx (x1 y1 x2 y2 : Nat) (s : State) : (expand x1 y1 x2 y2 s).freeIdx = s.freeIdx := rfl
@[simp] theorem expand_hostIn (x1 y1 x2 y2 : Nat) (s : State) : (expand x1 y1 x2 y2 s).hostIn = s.hostIn := rfl
@[simp] theorem expand_answers (x1 y1 x2 y2 : Nat) (s : State) : (expand x1 y1 x2 y2 s).answers = s.answers := rfl
@[simp] theorem expand_wire (x1 y1 x2 y2 : Nat) (s : State) : (expand x1 y1 x2 y2 s).wire = s.wire := rfl
@[simp] theorem expand_turns (x1 y1 x2 y2 : Nat) (s : State) : (expand x1 y1 x2 y2 s).turns = s.turns := rfl
@[simp] theorem expand_ctl (x1 y1 x2 y2 : Nat) (s : State) : (expand x1 y1 x2 y2 s).ctl = s.ctl := rfl
@[simp] theorem expand_ctlLost (x1 y1 x2 y2 : Nat) (s : State) : (expand x1 y1 x2 y2 s).ctlLost = s.ctlLost := rfl

/-! ### dirtyReset -/

@[simp] theorem dirtyReset_par (s : State) : (dirtyReset s).par = s.par := rfl
@[simp] theorem dirtyReset_win (s : State) :
    (dirtyReset s).win = { x1 := s.par.width, y1 := s.par.height, x2 := 0, y2 := 0 } := rfl
@[simp] theorem dirtyReset_opw (s : State) : (dirtyReset s).opw = s.opw := rfl
@[simp] theorem dirtyReset_seq (s : State) : (dirtyReset s).seq = s.seq := rfl
@[simp] theorem dirtyReset_status (s : State) : (dirtyReset s).status = s.status := rfl
@[simp] theorem dirtyReset_result (s : State) : (dirtyReset s).result = s.result := rfl
@[simp] theorem dirtyReset_rot (s : State) : (dirtyReset s).rot = s.rot := rfl
@[simp] theorem dirtyReset_contrast (s : State) : (dirtyReset s).contrast = s.contrast := rfl
@[simp] theorem dirtyReset_compins (s : State) : (dirtyReset s).compins = s.compins := rfl
@[simp] theorem dirtyReset_muxratio (s : State) : (dirtyReset s).muxratio = s.muxratio := rfl
@[simp] theorem dirtyReset_inv (s : State) : (dirtyReset s).inv = s.inv := rfl
@[simp] theorem dirtyReset_lstate (s : State) : (dirtyReset s).lstate = s.lstate := rfl
@[simp] theorem dirtyReset_fb (s : State) : (dirtyReset s).fb = s.fb := rfl
@[simp] theorem dirtyReset_trace (s : State) : (dirtyReset s).trace = s.trace := rfl
@[simp] theorem dirtyReset_refusalMark (s : State) : (dirtyReset s).refusalMark = s.refusalMark := rfl
@[simp] theorem dirtyReset_freeIdx (s : State) : (dirtyReset s).freeIdx = s.freeIdx := rfl
@[simp] theorem dirtyReset_hostIn (s : State) : (dirtyReset s).hostIn = s.hostIn := rfl
@[simp] theorem dirtyReset_answers (s : State) : (dirtyReset s).answers = s.answers := rfl
@[simp] theorem dirtyReset_wire (s : State) : (dirtyReset s).wire = s.wire := rfl
@[simp] theorem dirtyReset_turns (s : State) : (dirtyReset s).turns = s.turns := rfl
@[simp] theorem dirtyReset_ctl (s : State) : (dirtyReset s).ctl = s.ctl := rfl
@[simp] theorem dirtyReset_ctlLost (s : State) : (dirtyReset s).ctlLost = s.ctlLost := rfl

/-! ### freeResult -/

@[simp] theorem freeResult_par (s : State) : (freeResult s).par = s.par := rfl
@[simp] theorem freeResult_win (s : State) : (freeResult s).win = s.win := rfl
@[simp] theorem freeResult_opw (s : State) : (freeResult s).opw = s.opw := rfl
@[simp] theorem freeResult_seq (s : State) : (freeResult s).seq = s.seq := rfl
@[simp] theorem freeResult_status (s : State) : (freeResult s).status = s.status := rfl
@[simp] theorem freeResult_result (s : State) : (freeResult s).result = Config.freeResult s.freeIdx := rfl
@[simp] theorem freeResult_rot (s : State) : (freeResult s).rot = s.rot := rfl
@[simp] theorem freeResult_contrast (s : State) : (freeResult s).contrast = s.contrast := rfl
@[simp] theorem freeResult_compins (s : State) : (freeResult s).compins = s.compins := rfl
@[simp] theorem freeResult_muxratio (s : State) : (freeResult s).muxratio = s.muxratio := rfl
@[simp] theorem freeResult_inv (s : State) : (freeResult s).inv = s.inv := rfl
@[simp] theorem freeResult_lstate (s : State) : (freeResult s).lstate = s.lstate := rfl
@[simp] theorem freeResult_fb (s : State) : (freeResult s).fb = s.fb := rfl
@[simp] theorem freeResult_trace (s : State) : (freeResult s).trace = s.trace := rfl
@[simp] theorem freeResult_refusalMark (s : State) : (freeResult s).refusalMark = s.refusalMark := rfl
@[simp] theorem freeResult_freeIdx (s : State) : (freeResult s).freeIdx = s.freeIdx + 1 := rfl
@[simp] theorem freeResult_hostIn (s : State) : (freeResult s).hostIn = s.hostIn := rfl
@[simp] theorem freeResult_answers (s : State) : (freeResult s).answers = s.answers := rfl
@[simp] theorem freeResult_wire (s : State) : (freeResult s).wire = s.wire := rfl
@[simp] theorem freeResult_turns (s : State) : (freeResult s).turns = s.turns := rfl
@[simp] theorem freeResult_ctl (s : State) : (freeResult s).ctl = s.ctl := rfl
@[simp] theorem freeResult_ctlLost (s : State) : (freeResult s).ctlLost = s.ctlLost := rfl

/-! ### begin -/

@[simp] theorem begin_par (op : Op) (s : State) : (begin op s).par = s.par := rfl
@[simp] theorem begin_win (op : Op) (s : State) : (begin op s).win = s.win := rfl
@[simp] theorem begin_opw (op : Op) (s : State) : (begin op s).opw = s.opw := rfl
@[simp] theorem begin_seq (op : Op) (s : State) :
    (begin op s).seq = { op := some op, step := 0, page := 0, phase := .page } := rfl
@[simp] theorem begin_status (op : Op) (s : State) : (begin op s).status = s.status := rfl
@[simp] theorem begin_result (op : Op) (s : State) : (begin op s).result = s.result := rfl
@[simp] theorem begin_rot (op : Op) (s : State) : (begin op s).rot = s.rot := rfl
@[simp] theorem begin_contrast (op : Op) (s : State) : (begin op s).contrast = s.contrast := rfl
@[simp] theorem begin_compins (op : Op) (s : State) : (begin op s).compins = s.compins := rfl
@[simp] theorem begin_muxratio (op : Op) (s : State) : (begin op s).muxratio = s.muxratio := rfl
@[simp] theorem begin_inv (op : Op) (s : State) : (begin op s).inv = s.inv := rfl
@[simp] theorem begin_lstate (op : Op) (s : State) : (begin op s).lstate = s.lstate := rfl
@[simp] theorem begin_fb (op : Op) (s : State) : (begin op s).fb = s.fb := rfl
@[simp] theorem begin_trace (op : Op) (s : State) : (begin op s).trace = s.trace := rfl
@[simp] theorem begin_refusalMark (op : Op) (s : State) : (begin op s).refusalMark = s.refusalMark := rfl
@[simp] theorem begin_freeIdx (op : Op) (s : State) : (begin op s).freeIdx = s.freeIdx := rfl
@[simp] theorem begin_hostIn (op : Op) (s : State) : (begin op s).hostIn = s.hostIn := rfl
@[simp] theorem begin_answers (op : Op) (s : State) : (begin op s).answers = s.answers := rfl
@[simp] theorem begin_wire (op : Op) (s : State) : (begin op s).wire = s.wire := rfl
@[simp] theorem begin_turns (op : Op) (s : State) : (begin op s).turns = s.turns := rfl
@[simp] theorem begin_ctl (op : Op) (s : State) : (begin op s).ctl = s.ctl := rfl
@[simp] theorem begin_ctlLost (op : Op) (s : State) : (begin op s).ctlLost = s.ctlLost := rfl

/-! ### complete -/

@[simp] theorem complete_par (s : State) : (complete s).par = s.par := rfl
@[simp] theorem complete_win (s : State) : (complete s).win = s.win := rfl
@[simp] theorem complete_opw (s : State) : (complete s).opw = s.opw := rfl
@[simp] theorem complete_seq (s : State) : (complete s).seq = Seq.idle := rfl
@[simp] theorem complete_status (s : State) : (complete s).status = .ok := rfl
@[simp] theorem complete_result (s : State) : (complete s).result = s.result := rfl
@[simp] theorem complete_rot (s : State) : (complete s).rot = s.rot := rfl
@[simp] theorem complete_contrast (s : State) : (complete s).contrast = s.contrast := rfl
@[simp] theorem complete_compins (s : State) : (complete s).compins = s.compins := rfl
@[simp] theorem complete_muxratio (s : State) : (complete s).muxratio = s.muxratio := rfl
@[simp] theorem complete_inv (s : State) : (complete s).inv = s.inv := rfl
@[simp] theorem complete_lstate (s : State) : (complete s).lstate = s.lstate := rfl
@[simp] theorem complete_fb (s : State) : (complete s).fb = s.fb := rfl
@[simp] theorem complete_trace (s : State) : (complete s).trace = s.trace := rfl
@[simp] theorem complete_refusalMark (s : State) : (complete s).refusalMark = s.refusalMark := rfl
@[simp] theorem complete_freeIdx (s : State) : (complete s).freeIdx = s.freeIdx := rfl
@[simp] theorem complete_hostIn (s : State) : (complete s).hostIn = s.hostIn := rfl
@[simp] theorem complete_answers (s : State) : (complete s).answers = s.answers := rfl
@[simp] theorem complete_wire (s : State) : (complete s).wire = s.wire := rfl
@[simp] theorem complete_turns (s : State) : (complete s).turns = s.turns := rfl
@[simp] theorem complete_ctl (s : State) : (complete s).ctl = s.ctl := rfl
@[simp] theorem complete_ctlLost (s : State) : (complete s).ctlLost = s.ctlLost := rfl

/-! ### raiseTransportError -/

@[simp] theorem raiseTransportError_par (s : State) : (raiseTransportError s).par = s.par := rfl
@[simp] theorem raiseTransportError_win (s : State) : (raiseTransportError s).win = s.win := rfl
@[simp] theorem raiseTransportError_opw (s : State) : (raiseTransportError s).opw = s.opw := rfl
@[simp] theorem raiseTransportError_seq (s : State) : (raiseTransportError s).seq = Seq.idle := rfl
@[simp] theorem raiseTransportError_status (s : State) : (raiseTransportError s).status = .transportError := rfl
@[simp] theorem raiseTransportError_result (s : State) : (raiseTransportError s).result = s.result := rfl
@[simp] theorem raiseTransportError_rot (s : State) : (raiseTransportError s).rot = s.rot := rfl
@[simp] theorem raiseTransportError_contrast (s : State) : (raiseTransportError s).contrast = s.contrast := rfl
@[simp] theorem raiseTransportError_compins (s : State) : (raiseTransportError s).compins = s.compins := rfl
@[simp] theorem raiseTransportError_muxratio (s : State) : (raiseTransportError s).muxratio = s.muxratio := rfl
@[simp] theorem raiseTransportError_inv (s : State) : (raiseTransportError s).inv = s.inv := rfl
@[simp] theorem raiseTransportError_lstate (s : State) : (raiseTransportError s).lstate = s.lstate := rfl
@[simp] theorem raiseTransportError_fb (s : State) : (raiseTransportError s).fb = s.fb := rfl
@[simp] theorem raiseTransportError_trace (s : State) : (raiseTransportError s).trace = s.trace := rfl
@[simp] theorem raiseTransportError_refusalMark (s : State) :
    (raiseTransportError s).refusalMark = s.refusalMark := rfl
@[simp] theorem raiseTransportError_freeIdx (s : State) : (raiseTransportError s).freeIdx = s.freeIdx := rfl
@[simp] theorem raiseTransportError_hostIn (s : State) : (raiseTransportError s).hostIn = s.hostIn := rfl
@[simp] theorem raiseTransportError_answers (s : State) : (raiseTransportError s).answers = s.answers := rfl
@[simp] theorem raiseTransportError_wire (s : State) : (raiseTransportError s).wire = s.wire := rfl
@[simp] theorem raiseTransportError_turns (s : State) : (raiseTransportError s).turns = s.turns := rfl
@[simp] theorem raiseTransportError_ctl (s : State) : (raiseTransportError s).ctl = s.ctl := rfl
@[simp] theorem raiseTransportError_ctlLost (s : State) : (raiseTransportError s).ctlLost = s.ctlLost := rfl

/-! ### refuse -/

@[simp] theorem refuse_par (s : State) : (refuse s).par = s.par := rfl
@[simp] theorem refuse_win (s : State) : (refuse s).win = s.win := rfl
@[simp] theorem refuse_opw (s : State) : (refuse s).opw = s.opw := rfl
@[simp] theorem refuse_seq (s : State) : (refuse s).seq = Seq.idle := rfl
@[simp] theorem refuse_status (s : State) : (refuse s).status = .illegal := rfl
@[simp] theorem refuse_result (s : State) : (refuse s).result = Config.freeResult s.freeIdx := rfl
@[simp] theorem refuse_rot (s : State) : (refuse s).rot = s.rot := rfl
@[simp] theorem refuse_contrast (s : State) : (refuse s).contrast = s.contrast := rfl
@[simp] theorem refuse_compins (s : State) : (refuse s).compins = s.compins := rfl
@[simp] theorem refuse_muxratio (s : State) : (refuse s).muxratio = s.muxratio := rfl
@[simp] theorem refuse_inv (s : State) : (refuse s).inv = s.inv := rfl
@[simp] theorem refuse_lstate (s : State) : (refuse s).lstate = s.lstate := rfl
@[simp] theorem refuse_fb (s : State) : (refuse s).fb = s.fb := rfl
@[simp] theorem refuse_trace (s : State) : (refuse s).trace = s.trace := rfl
@[simp] theorem refuse_refusalMark (s : State) : (refuse s).refusalMark = true := rfl
@[simp] theorem refuse_freeIdx (s : State) : (refuse s).freeIdx = s.freeIdx + 1 := rfl
@[simp] theorem refuse_hostIn (s : State) : (refuse s).hostIn = s.hostIn := rfl
@[simp] theorem refuse_answers (s : State) : (refuse s).answers = s.answers := rfl
@[simp] theorem refuse_wire (s : State) : (refuse s).wire = s.wire := rfl
@[simp] theorem refuse_turns (s : State) : (refuse s).turns = s.turns := rfl
@[simp] theorem refuse_ctl (s : State) : (refuse s).ctl = s.ctl := rfl
@[simp] theorem refuse_ctlLost (s : State) : (refuse s).ctlLost = s.ctlLost := rfl

/-! ### recordOk -/

@[simp] theorem recordOk_par (t : Txn) (s : State) : (recordOk t s).par = s.par := rfl
@[simp] theorem recordOk_win (t : Txn) (s : State) : (recordOk t s).win = s.win := rfl
@[simp] theorem recordOk_opw (t : Txn) (s : State) : (recordOk t s).opw = s.opw := rfl
@[simp] theorem recordOk_seq (t : Txn) (s : State) : (recordOk t s).seq = s.seq := rfl
@[simp] theorem recordOk_status (t : Txn) (s : State) : (recordOk t s).status = s.status := rfl
@[simp] theorem recordOk_result (t : Txn) (s : State) : (recordOk t s).result = s.result := rfl
@[simp] theorem recordOk_rot (t : Txn) (s : State) : (recordOk t s).rot = s.rot := rfl
@[simp] theorem recordOk_contrast (t : Txn) (s : State) : (recordOk t s).contrast = s.contrast := rfl
@[simp] theorem recordOk_compins (t : Txn) (s : State) : (recordOk t s).compins = s.compins := rfl
@[simp] theorem recordOk_muxratio (t : Txn) (s : State) : (recordOk t s).muxratio = s.muxratio := rfl
@[simp] theorem recordOk_inv (t : Txn) (s : State) : (recordOk t s).inv = s.inv := rfl
@[simp] theorem recordOk_lstate (t : Txn) (s : State) : (recordOk t s).lstate = s.lstate := rfl
@[simp] theorem recordOk_fb (t : Txn) (s : State) : (recordOk t s).fb = s.fb := rfl
@[simp] theorem recordOk_trace (t : Txn) (s : State) : (recordOk t s).trace = s.trace ++ [.bus t .ok] := rfl
@[simp] theorem recordOk_refusalMark (t : Txn) (s : State) : (recordOk t s).refusalMark = s.refusalMark := rfl
@[simp] theorem recordOk_freeIdx (t : Txn) (s : State) : (recordOk t s).freeIdx = s.freeIdx := rfl
@[simp] theorem recordOk_hostIn (t : Txn) (s : State) : (recordOk t s).hostIn = s.hostIn := rfl
@[simp] theorem recordOk_answers (t : Txn) (s : State) : (recordOk t s).answers = s.answers.tail := rfl
@[simp] theorem recordOk_wire (t : Txn) (s : State) : (recordOk t s).wire = s.wire ++ [t] := rfl
@[simp] theorem recordOk_turns (t : Txn) (s : State) : (recordOk t s).turns = s.turns := rfl
@[simp] theorem recordOk_ctl (t : Txn) (s : State) : (recordOk t s).ctl = s.ctl := rfl
@[simp] theorem recordOk_ctlLost (t : Txn) (s : State) : (recordOk t s).ctlLost = s.ctlLost := rfl

/-! ### recordFail -/

@[simp] theorem recordFail_par (t : Txn) (s : State) : (recordFail t s).par = s.par := rfl
@[simp] theorem recordFail_win (t : Txn) (s : State) : (recordFail t s).win = s.win := rfl
@[simp] theorem recordFail_opw (t : Txn) (s : State) : (recordFail t s).opw = s.opw := rfl
@[simp] theorem recordFail_seq (t : Txn) (s : State) : (recordFail t s).seq = s.seq := rfl
@[simp] theorem recordFail_status (t : Txn) (s : State) : (recordFail t s).status = s.status := rfl
@[simp] theorem recordFail_result (t : Txn) (s : State) : (recordFail t s).result = s.result := rfl
@[simp] theorem recordFail_rot (t : Txn) (s : State) : (recordFail t s).rot = s.rot := rfl
@[simp] theorem recordFail_contrast (t : Txn) (s : State) : (recordFail t s).contrast = s.contrast := rfl
@[simp] theorem recordFail_compins (t : Txn) (s : State) : (recordFail t s).compins = s.compins := rfl
@[simp] theorem recordFail_muxratio (t : Txn) (s : State) : (recordFail t s).muxratio = s.muxratio := rfl
@[simp] theorem recordFail_inv (t : Txn) (s : State) : (recordFail t s).inv = s.inv := rfl
@[simp] theorem recordFail_lstate (t : Txn) (s : State) : (recordFail t s).lstate = s.lstate := rfl
@[simp] theorem recordFail_fb (t : Txn) (s : State) : (recordFail t s).fb = s.fb := rfl
@[simp] theorem recordFail_trace (t : Txn) (s : State) : (recordFail t s).trace = s.trace ++ [.bus t .fail] := rfl
@[simp] theorem recordFail_refusalMark (t : Txn) (s : State) : (recordFail t s).refusalMark = s.refusalMark := rfl
@[simp] theorem recordFail_freeIdx (t : Txn) (s : State) : (recordFail t s).freeIdx = s.freeIdx + 1 := rfl
@[simp] theorem recordFail_hostIn (t : Txn) (s : State) : (recordFail t s).hostIn = s.hostIn := rfl
@[simp] theorem recordFail_answers (t : Txn) (s : State) : (recordFail t s).answers = s.answers.tail := rfl
@[simp] theorem recordFail_wire (t : Txn) (s : State) :
    (recordFail t s).wire = s.wire ++ Txn.delivered t (Config.freeDelivered s.freeIdx) := rfl
@[simp] theorem recordFail_turns (t : Txn) (s : State) : (recordFail t s).turns = s.turns := rfl
@[simp] theorem recordFail_ctl (t : Txn) (s : State) : (recordFail t s).ctl = s.ctl := rfl
@[simp] theorem recordFail_ctlLost (t : Txn) (s : State) : (recordFail t s).ctlLost = s.ctlLost := rfl

/-! ### setPhase -/

@[simp] theorem setPhase_par (ph : Phase) (s : State) : (setPhase ph s).par = s.par := rfl
@[simp] theorem setPhase_win (ph : Phase) (s : State) : (setPhase ph s).win = s.win := rfl
@[simp] theorem setPhase_opw (ph : Phase) (s : State) : (setPhase ph s).opw = s.opw := rfl
@[simp] theorem setPhase_seq (ph : Phase) (s : State) : (setPhase ph s).seq = { s.seq with phase := ph } := rfl
@[simp] theorem setPhase_status (ph : Phase) (s : State) : (setPhase ph s).status = s.status := rfl
@[simp] theorem setPhase_result (ph : Phase) (s : State) : (setPhase ph s).result = s.result := rfl
@[simp] theorem setPhase_rot (ph : Phase) (s : State) : (setPhase ph s).rot = s.rot := rfl
@[simp] theorem setPhase_contrast (ph : Phase) (s : State) : (setPhase ph s).contrast = s.contrast := rfl
@[simp] theorem setPhase_compins (ph : Phase) (s : State) : (setPhase ph s).compins = s.compins := rfl
@[simp] theorem setPhase_muxratio (ph : Phase) (s : State) : (setPhase ph s).muxratio = s.muxratio := rfl
@[simp] theorem setPhase_inv (ph : Phase) (s : State) : (setPhase ph s).inv = s.inv := rfl
@[simp] theorem setPhase_lstate (ph : Phase) (s : State) : (setPhase ph s).lstate = s.lstate := rfl
@[simp] theorem setPhase_fb (ph : Phase) (s : State) : (setPhase ph s).fb = s.fb := rfl
@[simp] theorem setPhase_trace (ph : Phase) (s : State) : (setPhase ph s).trace = s.trace := rfl
@[simp] theorem setPhase_refusalMark (ph : Phase) (s : State) : (setPhase ph s).refusalMark = s.refusalMark := rfl
@[simp] theorem setPhase_freeIdx (ph : Phase) (s : State) : (setPhase ph s).freeIdx = s.freeIdx := rfl
@[simp] theorem setPhase_hostIn (ph : Phase) (s : State) : (setPhase ph s).hostIn = s.hostIn := rfl
@[simp] theorem setPhase_answers (ph : Phase) (s : State) : (setPhase ph s).answers = s.answers := rfl
@[simp] theorem setPhase_wire (ph : Phase) (s : State) : (setPhase ph s).wire = s.wire := rfl
@[simp] theorem setPhase_turns (ph : Phase) (s : State) : (setPhase ph s).turns = s.turns := rfl
@[simp] theorem setPhase_ctl (ph : Phase) (s : State) : (setPhase ph s).ctl = s.ctl := rfl
@[simp] theorem setPhase_ctlLost (ph : Phase) (s : State) : (setPhase ph s).ctlLost = s.ctlLost := rfl

/-! ### setPage -/

@[simp] theorem setPage_par (p : Nat) (s : State) : (setPage p s).par = s.par := rfl
@[simp] theorem setPage_win (p : Nat) (s : State) : (setPage p s).win = s.win := rfl
@[simp] theorem setPage_opw (p : Nat) (s : State) : (setPage p s).opw = s.opw := rfl
@[simp] theorem setPage_seq (p : Nat) (s : State) : (setPage p s).seq = { s.seq with page := p } := rfl
@[simp] theorem setPage_status (p : Nat) (s : State) : (setPage p s).status = s.status := rfl
@[simp] theorem setPage_result (p : Nat) (s : State) : (setPage p s).result = s.result := rfl
@[simp] theorem setPage_rot (p : Nat) (s : State) : (setPage p s).rot = s.rot := rfl
@[simp] theorem setPage_contrast (p : Nat) (s : State) : (setPage p s).contrast = s.contrast := rfl
@[simp] theorem setPage_compins (p : Nat) (s : State) : (setPage p s).compins = s.compins := rfl
@[simp] theorem setPage_muxratio (p : Nat) (s : State) : (setPage p s).muxratio = s.muxratio := rfl
@[simp] theorem setPage_inv (p : Nat) (s : State) : (setPage p s).inv = s.inv := rfl
@[simp] theorem setPage_lstate (p : Nat) (s : State) : (setPage p s).lstate = s.lstate := rfl
@[simp] theorem setPage_fb (p : Nat) (s : State) : (setPage p s).fb = s.fb := rfl
@[simp] theorem setPage_trace (p : Nat) (s : State) : (setPage p s).trace = s.trace := rfl
@[simp] theorem setPage_refusalMark (p : Nat) (s : State) : (setPage p s).refusalMark = s.refusalMark := rfl
@[simp] theorem setPage_freeIdx (p : Nat) (s : State) : (setPage p s).freeIdx = s.freeIdx := rfl
@[simp] theorem setPage_hostIn (p : Nat) (s : State) : (setPage p s).hostIn = s.hostIn := rfl
@[simp] theorem setPage_answers (p : Nat) (s : State) : (setPage p s).answers = s.answers := rfl
@[simp] theorem setPage_wire (p : Nat) (s : State) : (setPage p s).wire = s.wire := rfl
@[simp] theorem setPage_turns (p : Nat) (s : State) : (setPage p s).turns = s.turns := rfl
@[simp] theorem setPage_ctl (p : Nat) (s : State) : (setPage p s).ctl = s.ctl := rfl
@[simp] theorem setPage_ctlLost (p : Nat) (s : State) : (setPage p s).ctlLost = s.ctlLost := rfl

/-! ### setStep -/

@[simp] theorem setStep_par (k : Nat) (s : State) : (setStep k s).par = s.par := rfl
@[simp] theorem setStep_win (k : Nat) (s : State) : (setStep k s).win = s.win := rfl
@[simp] theorem setStep_opw (k : Nat) (s : State) : (setStep k s).opw = s.opw := rfl
@[simp] theorem setStep_seq (k : Nat) (s : State) : (setStep k s).seq = { s.seq with step := k } := rfl
@[simp] theorem setStep_status (k : Nat) (s : State) : (setStep k s).status = s.status := rfl
@[simp] theorem setStep_result (k : Nat) (s : State) : (setStep k s).result = s.result := rfl
@[simp] theorem setStep_rot (k : Nat) (s : State) : (setStep k s).rot = s.rot := rfl
@[simp] theorem setStep_contrast (k : Nat) (s : State) : (setStep k s).contrast = s.contrast := rfl
@[simp] theorem setStep_compins (k : Nat) (s : State) : (setStep k s).compins = s.compins := rfl
@[simp] theorem setStep_muxratio (k : Nat) (s : State) : (setStep k s).muxratio = s.muxratio := rfl
@[simp] theorem setStep_inv (k : Nat) (s : State) : (setStep k s).inv = s.inv := rfl
@[simp] theorem setStep_lstate (k : Nat) (s : State) : (setStep k s).lstate = s.lstate := rfl
@[simp] theorem setStep_fb (k : Nat) (s : State) : (setStep k s).fb = s.fb := rfl
@[simp] theorem setStep_trace (k : Nat) (s : State) : (setStep k s).trace = s.trace := rfl
@[simp] theorem setStep_refusalMark (k : Nat) (s : State) : (setStep k s).refusalMark = s.refusalMark := rfl
@[simp] theorem setStep_freeIdx (k : Nat) (s : State) : (setStep k s).freeIdx = s.freeIdx := rfl
@[simp] theorem setStep_hostIn (k : Nat) (s : State) : (setStep k s).hostIn = s.hostIn := rfl
@[simp] theorem setStep_answers (k : Nat) (s : State) : (setStep k s).answers = s.answers := rfl
@[simp] theorem setStep_wire (k : Nat) (s : State) : (setStep k s).wire = s.wire := rfl
@[simp] theorem setStep_turns (k : Nat) (s : State) : (setStep k s).turns = s.turns := rfl
@[simp] theorem setStep_ctl (k : Nat) (s : State) : (setStep k s).ctl = s.ctl := rfl
@[simp] theorem setStep_ctlLost (k : Nat) (s : State) : (setStep k s).ctlLost = s.ctlLost := rfl

/-! ### fillWith -/

@[simp] theorem fillWith_par (v : Byte) (s : State) : (fillWith v s).par = s.par := rfl
@[simp] theorem fillWith_win (v : Byte) (s : State) :
    (fillWith v s).win = { x1 := min s.win.x1 0, y1 := min s.win.y1 0, x2 := max s.win.x2 (s.par.width - 1), y2 := max s.win.y2 (s.par.height - 1) } := rfl
@[simp] theorem fillWith_opw (v : Byte) (s : State) : (fillWith v s).opw = s.opw := rfl
@[simp] theorem fillWith_seq (v : Byte) (s : State) : (fillWith v s).seq = s.seq := rfl
@[simp] theorem fillWith_status (v : Byte) (s : State) : (fillWith v s).status = s.status := rfl
@[simp] theorem fillWith_result (v : Byte) (s : State) : (fillWith v s).result = s.result := rfl
@[simp] theorem fillWith_rot (v : Byte) (s : State) : (fillWith v s).rot = s.rot := rfl
@[simp] theorem fillWith_contrast (v : Byte) (s : State) : (fillWith v s).contrast = s.contrast := rfl
@[simp] theorem fillWith_compins (v : Byte) (s : State) : (fillWith v s).compins = s.compins := rfl
@[simp] theorem fillWith_muxratio (v : Byte) (s : State) : (fillWith v s).muxratio = s.muxratio := rfl
@[simp] theorem fillWith_inv (v : Byte) (s : State) : (fillWith v s).inv = s.inv := rfl
@[simp] theorem fillWith_lstate (v : Byte) (s : State) : (fillWith v s).lstate = s.lstate := rfl
@[simp] theorem fillWith_fb (v : Byte) (s : State) : (fillWith v s).fb = s.fb.fill (fblen s) v := rfl
@[simp] theorem fillWith_trace (v : Byte) (s : State) : (fillWith v s).trace = s.trace := rfl
@[simp] theorem fillWith_refusalMark (v : Byte) (s : State) : (fillWith v s).refusalMark = s.refusalMark := rfl
@[simp] theorem fillWith_freeIdx (v : Byte) (s : State) : (fillWith v s).freeIdx = s.freeIdx := rfl
@[simp] theorem fillWith_hostIn (v : Byte) (s : State) : (fillWith v s).hostIn = s.hostIn := rfl
@[simp] theorem fillWith_answers (v : Byte) (s : State) : (fillWith v s).answers = s.answers := rfl
@[simp] theorem fillWith_wire (v : Byte) (s : State) : (fillWith v s).wire = s.wire := rfl
@[simp] theorem fillWith_turns (v : Byte) (s : State) : (fillWith v s).turns = s.turns := rfl
@[simp] theorem fillWith_ctl (v : Byte) (s : State) : (fillWith v s).ctl = s.ctl := rfl
@[simp] theorem fillWith_ctlLost (v : Byte) (s : State) : (fillWith v s).ctlLost = s.ctlLost := rfl

/-! ### withController -/

@[simp] theorem withController_par (f : Controller → Controller) (s : State) : (withController f s).par = s.par := rfl
@[simp] theorem withController_win (f : Controller → Controller) (s : State) : (withController f s).win = s.win := rfl
@[simp] theorem withController_opw (f : Controller → Controller) (s : State) : (withController f s).opw = s.opw := rfl
@[simp] theorem withController_seq (f : Controller → Controller) (s : State) : (withController f s).seq = s.seq := rfl
@[simp] theorem withController_status (f : Controller → Controller) (s : State) :
    (withController f s).status = s.status := rfl
@[simp] theorem withController_result (f : Controller → Controller) (s : State) :
    (withController f s).result = s.result := rfl
@[simp] theorem withController_rot (f : Controller → Controller) (s : State) : (withController f s).rot = s.rot := rfl
@[simp] theorem withController_contrast (f : Controller → Controller) (s : State) :
    (withController f s).contrast = s.contrast := rfl
@[simp] theorem withController_compins (f : Controller → Controller) (s : State) :
    (withController f s).compins = s.compins := rfl
@[simp] theorem withController_muxratio (f : Controller → Controller) (s : State) :
    (withController f s).muxratio = s.muxratio := rfl
@[simp] theorem withController_inv (f : Controller → Controller) (s : State) : (withController f s).inv = s.inv := rfl
@[simp] theorem withController_lstate (f : Controller → Controller) (s : State) :
    (withController f s).lstate = s.lstate := rfl
@[simp] theorem withController_fb (f : Controller → Controller) (s : State) : (withController f s).fb = s.fb := rfl
@[simp] theorem withController_trace (f : Controller → Controller) (s : State) :
    (withController f s).trace = s.trace := rfl
@[simp] theorem withController_refusalMark (f : Controller → Controller) (s : State) :
    (withController f s).refusalMark = s.refusalMark := rfl
@[simp] theorem withController_freeIdx (f : Controller → Controller) (s : State) :
    (withController f s).freeIdx = s.freeIdx := rfl
@[simp] theorem withController_hostIn (f : Controller → Controller) (s : State) :
    (withController f s).hostIn = s.hostIn := rfl
@[simp] theorem withController_answers (f : Controller → Controller) (s : State) :
    (withController f s).answers = s.answers := rfl
@[simp] theorem withController_wire (f : Controller → Controller) (s : State) :
    (withController f s).wire = s.wire := rfl
@[simp] theorem withController_turns (f : Controller → Controller) (s : State) :
    (withController f s).turns = s.turns := rfl
@[simp] theorem withController_ctl (f : Controller → Controller) (s : State) :
    (withController f s).ctl = f s.ctl := rfl
@[simp] theorem withController_ctlLost (f : Controller → Controller) (s : State) :
    (withController f s).ctlLost = s.ctlLost := rfl

/-! ### loseController -/

@[simp] theorem loseController_par (s : State) : (loseController s).par = s.par := rfl
@[simp] theorem loseController_win (s : State) : (loseController s).win = s.win := rfl
@[simp] theorem loseController_opw (s : State) : (loseController s).opw = s.opw := rfl
@[simp] theorem loseController_seq (s : State) : (loseController s).seq = s.seq := rfl
@[simp] theorem loseController_status (s : State) : (loseController s).status = s.status := rfl
@[simp] theorem loseController_result (s : State) : (loseController s).result = s.result := rfl
@[simp] theorem loseController_rot (s : State) : (loseController s).rot = s.rot := rfl
@[simp] theorem loseController_contrast (s : State) : (loseController s).contrast = s.contrast := rfl
@[simp] theorem loseController_compins (s : State) : (loseController s).compins = s.compins := rfl
@[simp] theorem loseController_muxratio (s : State) : (loseController s).muxratio = s.muxratio := rfl
@[simp] theorem loseController_inv (s : State) : (loseController s).inv = s.inv := rfl
@[simp] theorem loseController_lstate (s : State) : (loseController s).lstate = s.lstate := rfl
@[simp] theorem loseController_fb (s : State) : (loseController s).fb = s.fb := rfl
@[simp] theorem loseController_trace (s : State) : (loseController s).trace = s.trace := rfl
@[simp] theorem loseController_refusalMark (s : State) : (loseController s).refusalMark = s.refusalMark := rfl
@[simp] theorem loseController_freeIdx (s : State) : (loseController s).freeIdx = s.freeIdx + 1 := rfl
@[simp] theorem loseController_hostIn (s : State) : (loseController s).hostIn = s.hostIn := rfl
@[simp] theorem loseController_answers (s : State) : (loseController s).answers = s.answers := rfl
@[simp] theorem loseController_wire (s : State) : (loseController s).wire = [] := rfl
@[simp] theorem loseController_turns (s : State) : (loseController s).turns = s.turns := rfl
@[simp] theorem loseController_ctl (s : State) : (loseController s).ctl = Controller.indeterminate s.freeIdx := rfl
@[simp] theorem loseController_ctlLost (s : State) : (loseController s).ctlLost = true := rfl

/-! ### forgetController -/

@[simp] theorem forgetController_par (s : State) : (forgetController s).par = s.par := rfl
@[simp] theorem forgetController_win (s : State) : (forgetController s).win = s.win := rfl
@[simp] theorem forgetController_opw (s : State) : (forgetController s).opw = s.opw := rfl
@[simp] theorem forgetController_seq (s : State) : (forgetController s).seq = s.seq := rfl
@[simp] theorem forgetController_status (s : State) : (forgetController s).status = s.status := rfl
@[simp] theorem forgetController_result (s : State) : (forgetController s).result = s.result := rfl
@[simp] theorem forgetController_rot (s : State) : (forgetController s).rot = s.rot := rfl
@[simp] theorem forgetController_contrast (s : State) : (forgetController s).contrast = s.contrast := rfl
@[simp] theorem forgetController_compins (s : State) : (forgetController s).compins = s.compins := rfl
@[simp] theorem forgetController_muxratio (s : State) : (forgetController s).muxratio = s.muxratio := rfl
@[simp] theorem forgetController_inv (s : State) : (forgetController s).inv = s.inv := rfl
@[simp] theorem forgetController_lstate (s : State) : (forgetController s).lstate = s.lstate := rfl
@[simp] theorem forgetController_fb (s : State) : (forgetController s).fb = s.fb := rfl
@[simp] theorem forgetController_trace (s : State) : (forgetController s).trace = s.trace := rfl
@[simp] theorem forgetController_refusalMark (s : State) : (forgetController s).refusalMark = s.refusalMark := rfl
@[simp] theorem forgetController_freeIdx (s : State) : (forgetController s).freeIdx = s.freeIdx + 1 := rfl
@[simp] theorem forgetController_hostIn (s : State) : (forgetController s).hostIn = s.hostIn := rfl
@[simp] theorem forgetController_answers (s : State) : (forgetController s).answers = s.answers := rfl
@[simp] theorem forgetController_wire (s : State) : (forgetController s).wire = s.wire := rfl
@[simp] theorem forgetController_turns (s : State) : (forgetController s).turns = s.turns := rfl
@[simp] theorem forgetController_ctl (s : State) : (forgetController s).ctl = Controller.indeterminate s.freeIdx := rfl
@[simp] theorem forgetController_ctlLost (s : State) : (forgetController s).ctlLost = s.ctlLost := rfl

/-! ### takeTurn -/

@[simp] theorem takeTurn_par (s : State) : (takeTurn s).par = s.par := rfl
@[simp] theorem takeTurn_win (s : State) : (takeTurn s).win = s.win := rfl
@[simp] theorem takeTurn_opw (s : State) : (takeTurn s).opw = s.opw := rfl
@[simp] theorem takeTurn_seq (s : State) : (takeTurn s).seq = s.seq := rfl
@[simp] theorem takeTurn_status (s : State) : (takeTurn s).status = s.status := rfl
@[simp] theorem takeTurn_result (s : State) : (takeTurn s).result = s.result := rfl
@[simp] theorem takeTurn_rot (s : State) : (takeTurn s).rot = s.rot := rfl
@[simp] theorem takeTurn_contrast (s : State) : (takeTurn s).contrast = s.contrast := rfl
@[simp] theorem takeTurn_compins (s : State) : (takeTurn s).compins = s.compins := rfl
@[simp] theorem takeTurn_muxratio (s : State) : (takeTurn s).muxratio = s.muxratio := rfl
@[simp] theorem takeTurn_inv (s : State) : (takeTurn s).inv = s.inv := rfl
@[simp] theorem takeTurn_lstate (s : State) : (takeTurn s).lstate = s.lstate := rfl
@[simp] theorem takeTurn_fb (s : State) : (takeTurn s).fb = s.fb := rfl
@[simp] theorem takeTurn_trace (s : State) : (takeTurn s).trace = s.trace := rfl
@[simp] theorem takeTurn_refusalMark (s : State) : (takeTurn s).refusalMark = s.refusalMark := rfl
@[simp] theorem takeTurn_freeIdx (s : State) : (takeTurn s).freeIdx = s.freeIdx := rfl
@[simp] theorem takeTurn_hostIn (s : State) : (takeTurn s).hostIn = s.hostIn := rfl
@[simp] theorem takeTurn_answers (s : State) : (takeTurn s).answers = s.answers := rfl
@[simp] theorem takeTurn_wire (s : State) : (takeTurn s).wire = s.wire := rfl
@[simp] theorem takeTurn_turns (s : State) : (takeTurn s).turns = s.turns.tail := rfl
@[simp] theorem takeTurn_ctl (s : State) : (takeTurn s).ctl = s.ctl := rfl
@[simp] theorem takeTurn_ctlLost (s : State) : (takeTurn s).ctlLost = s.ctlLost := rfl

/-! ### presentHost -/

@[simp] theorem presentHost_par (s : State) (w : Nat) : (presentHost s w).par = s.par := rfl
@[simp] theorem presentHost_win (s : State) (w : Nat) : (presentHost s w).win = s.win := rfl
@[simp] theorem presentHost_opw (s : State) (w : Nat) : (presentHost s w).opw = s.opw := rfl
@[simp] theorem presentHost_seq (s : State) (w : Nat) : (presentHost s w).seq = Seq.idle := rfl
@[simp] theorem presentHost_status (s : State) (w : Nat) : (presentHost s w).status = s.status := rfl
@[simp] theorem presentHost_result (s : State) (w : Nat) : (presentHost s w).result = s.result := rfl
@[simp] theorem presentHost_rot (s : State) (w : Nat) : (presentHost s w).rot = s.rot := rfl
@[simp] theorem presentHost_contrast (s : State) (w : Nat) : (presentHost s w).contrast = s.contrast := rfl
@[simp] theorem presentHost_compins (s : State) (w : Nat) : (presentHost s w).compins = s.compins := rfl
@[simp] theorem presentHost_muxratio (s : State) (w : Nat) : (presentHost s w).muxratio = s.muxratio := rfl
@[simp] theorem presentHost_inv (s : State) (w : Nat) : (presentHost s w).inv = s.inv := rfl
@[simp] theorem presentHost_lstate (s : State) (w : Nat) : (presentHost s w).lstate = s.lstate := rfl
@[simp] theorem presentHost_fb (s : State) (w : Nat) : (presentHost s w).fb = s.fb := rfl
@[simp] theorem presentHost_trace (s : State) (w : Nat) : (presentHost s w).trace = s.trace := rfl
@[simp] theorem presentHost_refusalMark (s : State) (w : Nat) : (presentHost s w).refusalMark = s.refusalMark := rfl
@[simp] theorem presentHost_freeIdx (s : State) (w : Nat) : (presentHost s w).freeIdx = s.freeIdx := rfl
@[simp] theorem presentHost_hostIn (s : State) (w : Nat) :
    (presentHost s w).hostIn = BitVec.ofNat 64 w :: s.hostIn := rfl
@[simp] theorem presentHost_answers (s : State) (w : Nat) : (presentHost s w).answers = s.answers := rfl
@[simp] theorem presentHost_wire (s : State) (w : Nat) : (presentHost s w).wire = s.wire := rfl
@[simp] theorem presentHost_turns (s : State) (w : Nat) : (presentHost s w).turns = .fbp :: s.turns := rfl
@[simp] theorem presentHost_ctl (s : State) (w : Nat) : (presentHost s w).ctl = s.ctl := rfl
@[simp] theorem presentHost_ctlLost (s : State) (w : Nat) : (presentHost s w).ctlLost = s.ctlLost := rfl

/-! ### presentBus -/

@[simp] theorem presentBus_par (s : State) (w : Nat) : (presentBus s w).par = s.par := rfl
@[simp] theorem presentBus_win (s : State) (w : Nat) : (presentBus s w).win = s.win := rfl
@[simp] theorem presentBus_opw (s : State) (w : Nat) : (presentBus s w).opw = s.opw := rfl
@[simp] theorem presentBus_seq (s : State) (w : Nat) : (presentBus s w).seq = s.seq := rfl
@[simp] theorem presentBus_status (s : State) (w : Nat) : (presentBus s w).status = s.status := rfl
@[simp] theorem presentBus_result (s : State) (w : Nat) : (presentBus s w).result = s.result := rfl
@[simp] theorem presentBus_rot (s : State) (w : Nat) : (presentBus s w).rot = s.rot := rfl
@[simp] theorem presentBus_contrast (s : State) (w : Nat) : (presentBus s w).contrast = s.contrast := rfl
@[simp] theorem presentBus_compins (s : State) (w : Nat) : (presentBus s w).compins = s.compins := rfl
@[simp] theorem presentBus_muxratio (s : State) (w : Nat) : (presentBus s w).muxratio = s.muxratio := rfl
@[simp] theorem presentBus_inv (s : State) (w : Nat) : (presentBus s w).inv = s.inv := rfl
@[simp] theorem presentBus_lstate (s : State) (w : Nat) : (presentBus s w).lstate = s.lstate := rfl
@[simp] theorem presentBus_fb (s : State) (w : Nat) : (presentBus s w).fb = s.fb := rfl
@[simp] theorem presentBus_trace (s : State) (w : Nat) : (presentBus s w).trace = s.trace := rfl
@[simp] theorem presentBus_refusalMark (s : State) (w : Nat) : (presentBus s w).refusalMark = s.refusalMark := rfl
@[simp] theorem presentBus_freeIdx (s : State) (w : Nat) : (presentBus s w).freeIdx = s.freeIdx := rfl
@[simp] theorem presentBus_hostIn (s : State) (w : Nat) : (presentBus s w).hostIn = s.hostIn := rfl
@[simp] theorem presentBus_answers (s : State) (w : Nat) : (presentBus s w).answers = s.answers := rfl
@[simp] theorem presentBus_wire (s : State) (w : Nat) :
    (presentBus s w).wire = txnOfTableWord s.par.cmds w :: s.wire := rfl
@[simp] theorem presentBus_turns (s : State) (w : Nat) : (presentBus s w).turns = .controller :: s.turns := rfl
@[simp] theorem presentBus_ctl (s : State) (w : Nat) : (presentBus s w).ctl = s.ctl := rfl
@[simp] theorem presentBus_ctlLost (s : State) (w : Nat) : (presentBus s w).ctlLost = false := rfl

/-! ### delay -/

@[simp] theorem delay_par (ms : Nat) (s : State) : (delay ms s).par = s.par := by
  unfold delay; split <;> rfl
@[simp] theorem delay_win (ms : Nat) (s : State) : (delay ms s).win = s.win := by
  unfold delay; split <;> rfl
@[simp] theorem delay_opw (ms : Nat) (s : State) : (delay ms s).opw = s.opw := by
  unfold delay; split <;> rfl
@[simp] theorem delay_seq (ms : Nat) (s : State) : (delay ms s).seq = s.seq := by
  unfold delay; split <;> rfl
@[simp] theorem delay_status (ms : Nat) (s : State) :
    (delay ms s).status = s.status := by
  unfold delay; split <;> rfl
@[simp] theorem delay_result (ms : Nat) (s : State) :
    (delay ms s).result = s.result := by
  unfold delay; split <;> rfl
@[simp] theorem delay_rot (ms : Nat) (s : State) : (delay ms s).rot = s.rot := by
  unfold delay; split <;> rfl
@[simp] theorem delay_contrast (ms : Nat) (s : State) :
    (delay ms s).contrast = s.contrast := by
  unfold delay; split <;> rfl
@[simp] theorem delay_compins (ms : Nat) (s : State) :
    (delay ms s).compins = s.compins := by
  unfold delay; split <;> rfl
@[simp] theorem delay_muxratio (ms : Nat) (s : State) :
    (delay ms s).muxratio = s.muxratio := by
  unfold delay; split <;> rfl
@[simp] theorem delay_inv (ms : Nat) (s : State) : (delay ms s).inv = s.inv := by
  unfold delay; split <;> rfl
@[simp] theorem delay_lstate (ms : Nat) (s : State) :
    (delay ms s).lstate = s.lstate := by
  unfold delay; split <;> rfl
@[simp] theorem delay_fb (ms : Nat) (s : State) : (delay ms s).fb = s.fb := by
  unfold delay; split <;> rfl
@[simp] theorem delay_refusalMark (ms : Nat) (s : State) :
    (delay ms s).refusalMark = s.refusalMark := by
  unfold delay; split <;> rfl
@[simp] theorem delay_freeIdx (ms : Nat) (s : State) :
    (delay ms s).freeIdx = s.freeIdx := by
  unfold delay; split <;> rfl
@[simp] theorem delay_hostIn (ms : Nat) (s : State) :
    (delay ms s).hostIn = s.hostIn := by
  unfold delay; split <;> rfl
@[simp] theorem delay_answers (ms : Nat) (s : State) :
    (delay ms s).answers = s.answers := by
  unfold delay; split <;> rfl
@[simp] theorem delay_wire (ms : Nat) (s : State) : (delay ms s).wire = s.wire := by
  unfold delay; split <;> rfl
@[simp] theorem delay_turns (ms : Nat) (s : State) : (delay ms s).turns = s.turns := by
  unfold delay; split <;> rfl
@[simp] theorem delay_ctl (ms : Nat) (s : State) : (delay ms s).ctl = s.ctl := by
  unfold delay; split <;> rfl
@[simp] theorem delay_ctlLost (ms : Nat) (s : State) :
    (delay ms s).ctlLost = s.ctlLost := by
  unfold delay; split <;> rfl

/-- A delay of 0 leaves no event; any other leaves exactly one (R232, R277). -/
theorem delay_trace (ms : Nat) (s : State) :
    (delay ms s).trace = s.trace ++ (if ms = 0 then [] else [.delay ms]) := by
  unfold delay; split <;> simp

/-! ### initWrite -/

@[simp] theorem initWrite_par (w : InitWrite) (s : State) : (initWrite w s).par = s.par := by
  cases w <;> rfl
@[simp] theorem initWrite_win (w : InitWrite) (s : State) : (initWrite w s).win = s.win := by
  cases w <;> rfl
@[simp] theorem initWrite_opw (w : InitWrite) (s : State) : (initWrite w s).opw = s.opw := by
  cases w <;> rfl
@[simp] theorem initWrite_seq (w : InitWrite) (s : State) : (initWrite w s).seq = s.seq := by
  cases w <;> rfl
@[simp] theorem initWrite_status (w : InitWrite) (s : State) :
    (initWrite w s).status = s.status := by
  cases w <;> rfl
@[simp] theorem initWrite_result (w : InitWrite) (s : State) :
    (initWrite w s).result = s.result := by
  cases w <;> rfl
@[simp] theorem initWrite_rot (w : InitWrite) (s : State) : (initWrite w s).rot = s.rot := by
  cases w <;> rfl
theorem initWrite_contrast (w : InitWrite) (s : State) :
    (initWrite w s).contrast = if w = .profile then (profile s.par.width s.par.height).2 else s.contrast := by
  cases w <;> rfl
theorem initWrite_compins (w : InitWrite) (s : State) :
    (initWrite w s).compins = if w = .profile then (profile s.par.width s.par.height).1 else s.compins := by
  cases w <;> rfl
theorem initWrite_muxratio (w : InitWrite) (s : State) :
    (initWrite w s).muxratio = if w = .muxratio then BitVec.ofNat 8 (s.par.height - 1) else s.muxratio := by
  cases w <;> rfl
theorem initWrite_inv (w : InitWrite) (s : State) :
    (initWrite w s).inv = if w = .clearInv then false else s.inv := by
  cases w <;> rfl
@[simp] theorem initWrite_lstate (w : InitWrite) (s : State) :
    (initWrite w s).lstate = s.lstate := by
  cases w <;> rfl
@[simp] theorem initWrite_fb (w : InitWrite) (s : State) : (initWrite w s).fb = s.fb := by
  cases w <;> rfl
@[simp] theorem initWrite_trace (w : InitWrite) (s : State) : (initWrite w s).trace = s.trace := by
  cases w <;> rfl
@[simp] theorem initWrite_refusalMark (w : InitWrite) (s : State) :
    (initWrite w s).refusalMark = s.refusalMark := by
  cases w <;> rfl
@[simp] theorem initWrite_freeIdx (w : InitWrite) (s : State) :
    (initWrite w s).freeIdx = s.freeIdx := by
  cases w <;> rfl
@[simp] theorem initWrite_hostIn (w : InitWrite) (s : State) :
    (initWrite w s).hostIn = s.hostIn := by
  cases w <;> rfl
@[simp] theorem initWrite_answers (w : InitWrite) (s : State) :
    (initWrite w s).answers = s.answers := by
  cases w <;> rfl
@[simp] theorem initWrite_wire (w : InitWrite) (s : State) : (initWrite w s).wire = s.wire := by
  cases w <;> rfl
@[simp] theorem initWrite_turns (w : InitWrite) (s : State) : (initWrite w s).turns = s.turns := by
  cases w <;> rfl
@[simp] theorem initWrite_ctl (w : InitWrite) (s : State) : (initWrite w s).ctl = s.ctl := by
  cases w <;> rfl
@[simp] theorem initWrite_ctlLost (w : InitWrite) (s : State) :
    (initWrite w s).ctlLost = s.ctlLost := by
  cases w <;> rfl

end Sys2Proof.Machine
end

