-- ==== Sys2Proof/Laws/Draw.lean ====
section
/-! SUPPORT. The drawing procedures: what they may change (the framebuffer and the window, nothing else), that
they keep both in order, and the clipping lemmas they rest on. -/

namespace Sys2Proof.Machine

/-! ## What drawing may change -/

/-- `t` is `s` but for the framebuffer and the dirty window. -/
def DrawsOnly (s t : State) : Prop := ∃ m w, t = { s with fb := m, win := w }

theorem DrawsOnly.refl (s : State) : DrawsOnly s s := ⟨s.fb, s.win, rfl⟩

theorem DrawsOnly.trans {s t u : State} (h : DrawsOnly s t) (h' : DrawsOnly t u) : DrawsOnly s u := by
  obtain ⟨m, w, rfl⟩ := h
  obtain ⟨m', w', rfl⟩ := h'
  exact ⟨m', w', rfl⟩

theorem DrawsOnly.par {s t : State} (h : DrawsOnly s t) : t.par = s.par := by
  obtain ⟨m, w, rfl⟩ := h; rfl

theorem DrawsOnly.rot {s t : State} (h : DrawsOnly s t) : t.rot = s.rot := by
  obtain ⟨m, w, rfl⟩ := h; rfl

theorem setPixel_drawsOnly (x y : Int) (mode : Mode) (s : State) : DrawsOnly s (setPixel x y mode s) := by
  unfold setPixel
  split
  · exact ⟨_, _, rfl⟩
  · exact DrawsOnly.refl s

theorem fillWith_drawsOnly (v : Byte) (s : State) : DrawsOnly s (fillWith v s) := ⟨_, _, rfl⟩

theorem hSpanPhys_drawsOnly (x y len : Int) (mode : Mode) (s : State) : DrawsOnly s (hSpanPhys x y len mode s) := by
  unfold hSpanPhys
  split
  · exact DrawsOnly.refl s
  · exact ⟨_, _, rfl⟩

theorem vSpanPhys_drawsOnly (x y len : Int) (mode : Mode) (s : State) : DrawsOnly s (vSpanPhys x y len mode s) := by
  unfold vSpanPhys
  split
  · exact DrawsOnly.refl s
  · exact ⟨_, _, rfl⟩

theorem writeSpan_drawsOnly (sp : Span) (mode : Mode) (s : State) : DrawsOnly s (writeSpan sp mode s) := by
  unfold writeSpan
  split
  · exact hSpanPhys_drawsOnly _ _ _ _ s
  · exact vSpanPhys_drawsOnly _ _ _ _ s

theorem logicalSpan_drawsOnly (dir : Dir) (x y len : Int) (mode : Mode) (s : State) :
    DrawsOnly s (logicalSpan dir x y len mode s) := by
  unfold logicalSpan
  split
  · exact DrawsOnly.refl s
  · exact writeSpan_drawsOnly _ _ s

theorem blit_drawsOnly (sp : Splash) (a : Asset) (s : State) : DrawsOnly s (blit sp a s) := by
  unfold blit
  generalize assetPixels a = l
  induction l generalizing s with
  | nil => exact DrawsOnly.refl s
  | cons c l ih => exact (setPixel_drawsOnly _ _ _ s).trans (ih _)

theorem clearOrSplash_drawsOnly (s : State) : DrawsOnly s (clearOrSplash s) := by
  unfold clearOrSplash
  split
  · exact fillWith_drawsOnly _ s
  · refine DrawsOnly.trans ?_ (blit_drawsOnly _ _ _)
    split
    · exact fillWith_drawsOnly _ s
    · exact DrawsOnly.refl s

/-! ## Indices and clipping -/

/-- Every pixel of the panel has an index inside the framebuffer (R66). -/
theorem pixelIndex_lt {w h px py : Nat} (hx : px < w) (hy : py < h) : pixelIndex w px py < w * ((h + 7) / 8) := by
  have h1 : py / 8 + 1 ≤ (h + 7) / 8 := by omega
  have h2 := Nat.mul_le_mul_right w h1
  rw [Nat.add_mul, Nat.one_mul, Nat.mul_comm ((h + 7) / 8) w] at h2
  unfold pixelIndex
  omega

/-- What clipping answers (R181, R186): the run of the positions that are on the panel. -/
theorem clipRun_some {bound : Nat} {start len : Int} {a n : Nat} (h : clipRun bound start len = some (a, n)) :
    1 ≤ n ∧ a + n ≤ bound ∧ (a : Int) = max start 0 ∧ ((a + n : Nat) : Int) = min (start + len) bound := by
  unfold clipRun at h
  simp only at h
  split_ifs at h <;> simp only [Option.some.injEq, Prod.mk.injEq] at h <;> obtain ⟨rfl, rfl⟩ := h <;> omega

/-- Nothing is answered exactly when no position of the run is on the panel. -/
theorem clipRun_none {bound : Nat} {start len : Int} (h : clipRun bound start len = none) (p : Int) :
    ¬ (start ≤ p ∧ p < start + len ∧ 0 ≤ p ∧ p < bound) := by
  unfold clipRun at h
  simp only at h
  split_ifs at h <;> omega

theorem hClip_some {w h : Nat} {x y len : Int} {a r n : Nat} (e : hClip w h x y len = some (a, r, n)) :
    (r : Int) = y ∧ r < h ∧ clipRun w x len = some (a, n) := by
  unfold hClip at e
  split at e
  · simp at e
  · simp only [Option.map_eq_some_iff, Prod.mk.injEq] at e
    obtain ⟨c, hc, rfl, rfl, rfl⟩ := e
    exact ⟨by omega, by omega, hc⟩

theorem vClip_some {w h : Nat} {x y len : Int} {c a n : Nat} (e : vClip w h x y len = some (c, a, n)) :
    (c : Int) = x ∧ c < w ∧ clipRun h y len = some (a, n) := by
  unfold vClip at e
  split at e
  · simp at e
  · simp only [Option.map_eq_some_iff, Prod.mk.injEq] at e
    obtain ⟨d, hd, rfl, rfl, rfl⟩ := e
    exact ⟨by omega, by omega, hd⟩

/-! ## The writers keep memory in order -/

theorem hWrite_ok {w h x y len : Nat} (hx : x + len ≤ w) (hy : y < h) (mode : Mode) {m : Memory} (hm : m.wf)
    (hb : Memory.below (w * ((h + 7) / 8)) m) :
    (hWrite w mode x y len m).wf ∧ Memory.below (w * ((h + 7) / 8)) (hWrite w mode x y len m) := by
  unfold hWrite
  have key : ∀ l : List Nat, (∀ i ∈ l, i < len) → ∀ m : Memory, m.wf → Memory.below (w * ((h + 7) / 8)) m →
      (l.foldl (fun mem i => mem.modify mode (pixelIndex w (x + i) y) (pixelMask y)) m).wf ∧
      Memory.below (w * ((h + 7) / 8))
        (l.foldl (fun mem i => mem.modify mode (pixelIndex w (x + i) y) (pixelMask y)) m) := by
    intro l
    induction l with
    | nil => exact fun _ m h1 h2 => ⟨h1, h2⟩
    | cons i l ih =>
      intro hl m h1 h2
      refine ih (fun j hj => hl j (by simp [hj])) _ (Memory.modify_wf h1 _ _ _) (Memory.modify_below h2 _ ?_ _)
      have := hl i (by simp)
      exact pixelIndex_lt (by omega) hy
  exact key _ (fun i hi => List.mem_range.1 hi) m hm hb

theorem wholeByte_wf (mode : Mode) (i : Nat) {m : Memory} (hm : m.wf) : (wholeByte mode i m).wf := by
  cases mode <;> exact Memory.write_wf hm _ _

theorem wholeByte_below (mode : Mode) {i n : Nat} (hi : i < n) {m : Memory} (hm : Memory.below n m) :
    Memory.below n (wholeByte mode i m) := by
  cases mode <;> exact Memory.write_below hm hi _

theorem wholeBytes_wf (w : Nat) (mode : Mode) (n i : Nat) {m : Memory} (hm : m.wf) :
    (wholeBytes w mode n i m).wf := by
  induction n generalizing i m with
  | zero => exact hm
  | succ n ih => exact ih _ (wholeByte_wf mode i hm)

/-- A column index of page `p`. -/
theorem columnIndex_lt {w P x p : Nat} (hx : x < w) (hp : p < P) : x + p * w < w * P := by
  have h2 := Nat.mul_le_mul_right w hp
  rw [Nat.succ_mul, Nat.mul_comm P w] at h2
  omega

theorem wholeBytes_below {w P x : Nat} (hx : x < w) (mode : Mode) (n p : Nat) (hp : p + n ≤ P) {m : Memory}
    (hm : Memory.below (w * P) m) : Memory.below (w * P) (wholeBytes w mode n (x + p * w) m) := by
  induction n generalizing p m with
  | zero => exact hm
  | succ n ih =>
    have e : x + p * w + w = x + (p + 1) * w := by rw [Nat.succ_mul]; omega
    rw [wholeBytes, e]
    exact ih (p + 1) (by omega) (wholeByte_below mode (columnIndex_lt hx (by omega)) hm)

theorem vWriteAligned_wf (w : Nat) (mode : Mode) (i rem : Nat) {m : Memory} (hm : m.wf) :
    (vWriteAligned w mode i rem m).wf := by
  unfold vWriteAligned
  split
  · exact wholeBytes_wf _ _ _ _ hm
  · exact Memory.modify_wf (wholeBytes_wf _ _ _ _ hm) _ _ _

theorem vWriteAligned_below {w P x : Nat} (hx : x < w) (mode : Mode) (p rem : Nat) (hp : 8 * p + rem ≤ 8 * P)
    {m : Memory} (hm : Memory.below (w * P) m) :
    Memory.below (w * P) (vWriteAligned w mode (x + p * w) rem m) := by
  have hw := wholeBytes_below hx mode (rem / 8) p (by omega) hm
  unfold vWriteAligned
  split
  · exact hw
  · have e : x + p * w + rem / 8 * w = x + (p + rem / 8) * w := by rw [Nat.add_mul]; omega
    simp only [e]
    exact Memory.modify_below hw _ (columnIndex_lt hx (by omega)) _

theorem vWrite_ok {w h x y len : Nat} (hx : x < w) (hy : y + len ≤ h) (mode : Mode) {m : Memory} (hm : m.wf)
    (hb : Memory.below (w * ((h + 7) / 8)) m) (hl : 1 ≤ len) :
    (vWrite w mode x y len m).wf ∧ Memory.below (w * ((h + 7) / 8)) (vWrite w mode x y len m) := by
  unfold vWrite
  simp only [pixelIndex]
  split
  · exact ⟨vWriteAligned_wf _ _ _ _ hm, vWriteAligned_below hx _ _ _ (by omega) hb⟩
  · have e : x + y / 8 * w + w = x + (y / 8 + 1) * w := by rw [Nat.succ_mul]; omega
    rw [e]
    by_cases hs : len ≤ 8 - y % 8
    · have hz : len - min len (8 - y % 8) = 0 := by omega
      simp only [hz]
      exact ⟨Memory.modify_wf hm _ _ _, Memory.modify_below hb _ (columnIndex_lt hx (by omega)) _⟩
    · exact ⟨vWriteAligned_wf _ _ _ _ (Memory.modify_wf hm _ _ _),
        vWriteAligned_below hx _ _ _ (by omega) (Memory.modify_below hb _ (columnIndex_lt hx (by omega)) _)⟩

/-! ## Drawing keeps the canvas in order -/

/-- The panel, the window and the framebuffer are in order: the drawing share of `Inv`. -/
structure Canvas (s : State) : Prop where
  width : 1 ≤ s.par.width
  height : 1 ≤ s.par.height
  window : WindowOk s
  wf : s.fb.wf
  below : Memory.below (fblen s) s.fb

theorem expand_windowOk {s : State} (hs : WindowOk s) {x1 y1 x2 y2 : Nat} (hx : x1 ≤ x2) (hx' : x2 < s.par.width)
    (hy : y1 ≤ y2) (hy' : y2 < s.par.height) : WindowOk (expand x1 y1 x2 y2 s) := by
  rcases hs with h | h
  · refine .inr ?_
    simp only [windowEmpty] at h
    simp only [windowInPanel, expand_win, expand_par, h]
    omega
  · refine .inr ?_
    simp only [windowInPanel] at h
    simp only [windowInPanel, expand_win, expand_par]
    omega

/-- From the empty window the first rectangle is the window (R23, R151). -/
theorem expand_empty {s : State} (hs : windowEmpty s) {x1 y1 x2 y2 : Nat} (hx : x1 ≤ s.par.width)
    (hy : y1 ≤ s.par.height) : (expand x1 y1 x2 y2 s).win = { x1 := x1, y1 := y1, x2 := x2, y2 := y2 } := by
  simp only [windowEmpty] at hs
  simp only [expand_win, hs, Window.mk.injEq]
  omega

theorem Canvas.draw {s : State} (h : Canvas s) {m : Memory} (hm : m.wf) (hb : Memory.below (fblen s) m)
    {x1 y1 x2 y2 : Nat} (hx : x1 ≤ x2) (hx' : x2 < s.par.width) (hy : y1 ≤ y2) (hy' : y2 < s.par.height) :
    Canvas (expand x1 y1 x2 y2 { s with fb := m }) where
  width := h.width
  height := h.height
  window := expand_windowOk (s := { s with fb := m }) h.window hx hx' hy hy'
  wf := hm
  below := hb

/-- An in-bounds logical point is an in-bounds physical point (R163). -/
theorem physical_lt {s : State} {x y : Int} (h : inLogical s x y = true) :
    (physical s x y).1 < s.par.width ∧ (physical s x y).2 < s.par.height := by
  unfold inLogical logicalWidth logicalHeight at h
  unfold physical xform
  cases hr : s.rot <;> simp only [hr, Bool.and_eq_true, decide_eq_true_eq] at h ⊢ <;> omega

theorem setPixel_canvas (x y : Int) (mode : Mode) {s : State} (h : Canvas s) : Canvas (setPixel x y mode s) := by
  unfold setPixel
  split
  · next hin =>
    obtain ⟨hx, hy⟩ := physical_lt hin
    exact h.draw (Memory.modify_wf h.wf _ _ _) (Memory.modify_below h.below _ (pixelIndex_lt hx hy) _)
      le_rfl hx le_rfl hy
  · exact h

theorem fillWith_canvas (v : Byte) {s : State} (h : Canvas s) : Canvas (fillWith v s) :=
  h.draw (Memory.fill_wf h.wf _ _) (Memory.fill_below h.below _) (Nat.zero_le _) (by have := h.width; omega)
    (Nat.zero_le _) (by have := h.height; omega)

theorem hSpanPhys_canvas (x y len : Int) (mode : Mode) {s : State} (h : Canvas s) :
    Canvas (hSpanPhys x y len mode s) := by
  unfold hSpanPhys
  split
  · exact h
  · next a r n e =>
    obtain ⟨_, hr, hc⟩ := hClip_some e
    obtain ⟨h1, h2, _⟩ := clipRun_some hc
    obtain ⟨hm, hb⟩ := hWrite_ok h2 hr mode h.wf h.below
    exact h.draw hm hb (by omega) (by omega) le_rfl hr

theorem vSpanPhys_canvas (x y len : Int) (mode : Mode) {s : State} (h : Canvas s) :
    Canvas (vSpanPhys x y len mode s) := by
  unfold vSpanPhys
  split
  · exact h
  · next c a n e =>
    obtain ⟨_, hr, hc⟩ := vClip_some e
    obtain ⟨h1, h2, _⟩ := clipRun_some hc
    obtain ⟨hm, hb⟩ := vWrite_ok hr h2 mode h.wf h.below h1
    exact h.draw hm hb le_rfl hr (by omega) (by omega)

theorem writeSpan_canvas (sp : Span) (mode : Mode) {s : State} (h : Canvas s) : Canvas (writeSpan sp mode s) := by
  unfold writeSpan
  split
  · exact hSpanPhys_canvas _ _ _ _ h
  · exact vSpanPhys_canvas _ _ _ _ h

theorem logicalSpan_canvas (dir : Dir) (x y len : Int) (mode : Mode) {s : State} (h : Canvas s) :
    Canvas (logicalSpan dir x y len mode s) := by
  unfold logicalSpan
  split
  · exact h
  · exact writeSpan_canvas _ _ h

theorem blit_canvas (sp : Splash) (a : Asset) {s : State} (h : Canvas s) : Canvas (blit sp a s) := by
  unfold blit
  generalize assetPixels a = l
  induction l generalizing s with
  | nil => exact h
  | cons c l ih => exact ih (setPixel_canvas _ _ _ h)

theorem clearOrSplash_canvas {s : State} (h : Canvas s) : Canvas (clearOrSplash s) := by
  unfold clearOrSplash
  split
  · exact fillWith_canvas _ h
  · refine blit_canvas _ _ ?_
    split
    · exact fillWith_canvas _ h
    · exact h

theorem dirtyReset_canvas {s : State} (h : Canvas s) : Canvas (dirtyReset s) where
  width := h.width
  height := h.height
  window := .inl rfl
  wf := h.wf
  below := h.below

end Sys2Proof.Machine
end

