-- ==== Sys2Proof/Laws/Bus.lean ====
section
/-! SUPPORT. The bus primitives and the procedures built on them: what a transaction, a flush, the init table and a
whole operation may change, said once each. -/

namespace Sys2Proof.Machine

/-! ## Sequences of micro-steps -/

@[simp] theorem Flow.bind_done (s : State) (f : State → Flow) : (Flow.done s).bind f = f s := rfl
@[simp] theorem Flow.bind_raised (s : State) (f : State → Flow) : (Flow.raised s).bind f = .raised s := rfl
@[simp] theorem Flow.bind_illegal (s : State) (f : State → Flow) : (Flow.illegal s).bind f = .illegal s := rfl

theorem Flow.bind_assoc (r : Flow) (f g : State → Flow) : (r.bind f).bind g = r.bind fun s => (f s).bind g := by
  cases r <;> rfl

@[simp] theorem Flow.onRaised_done (s : State) (f : State → State) : (Flow.done s).onRaised f = .done s := rfl
@[simp] theorem Flow.onRaised_raised (s : State) (f : State → State) : (Flow.raised s).onRaised f = .raised (f s) := rfl
@[simp] theorem Flow.onRaised_illegal (s : State) (f : State → State) : (Flow.illegal s).onRaised f = .illegal s := rfl

/-- Where the sequence ends: `P` if it is done, `Q` if TransportError was raised. -/
def Flow.Meets (r : Flow) (P Q : State → Prop) : Prop :=
  match r with
  | .done s => P s
  | .raised s => Q s
  | .illegal _ => False

theorem Flow.Meets.bind {r : Flow} {P P' Q : State → Prop} {f : State → Flow} (h : r.Meets P Q)
    (hf : ∀ s, P s → (f s).Meets P' Q) : (r.bind f).Meets P' Q := by
  cases r with
  | done s => exact hf s h
  | raised s => exact h
  | illegal s => exact h

/-- Two facts about one sequence. -/
theorem Flow.Meets.and {r : Flow} {P P' Q Q' : State → Prop} (h : r.Meets P Q) (h' : r.Meets P' Q') :
    r.Meets (fun s => P s ∧ P' s) (fun s => Q s ∧ Q' s) := by
  cases r with
  | done s => exact ⟨h, h'⟩
  | raised s => exact ⟨h, h'⟩
  | illegal s => exact h

theorem Flow.Meets.imp {r : Flow} {P P' Q Q' : State → Prop} (h : r.Meets P Q) (hp : ∀ s, P s → P' s)
    (hq : ∀ s, Q s → Q' s) : r.Meets P' Q' := by
  cases r with
  | done s => exact hp s h
  | raised s => exact hq s h
  | illegal s => exact h

theorem Flow.Meets.onRaised {r : Flow} {P Q Q' : State → Prop} {f : State → State} (h : r.Meets P Q)
    (hf : ∀ s, Q s → Q' (f s)) : (r.onRaised f).Meets P Q' := by
  cases r with
  | done s => exact h
  | raised s => exact hf s h
  | illegal s => exact h

/-! ## One transaction -/

/-- The two ways a transaction ends (R200). -/
theorem busSend_cases (t : Txn) (s : State) :
    (answerOf s t = .ok ∧ busSend t s = .done (recordOk t s)) ∨
    (answerOf s t = .fail ∧ busSend t s = .raised (raiseTransportError (recordFail t s))) := by
  unfold busSend
  cases h : answerOf s t <;> simp

theorem busSend_ok {t : Txn} {s : State} (h : answerOf s t = .ok) : busSend t s = .done (recordOk t s) := by
  simp [busSend, h]

theorem busSend_fail {t : Txn} {s : State} (h : answerOf s t = .fail) :
    busSend t s = .raised (raiseTransportError (recordFail t s)) := by
  simp [busSend, h]

/-- A scripted answer is the answer. -/
theorem answerOf_scripted {s : State} {a : Answer} {rest : List Answer} (h : s.answers = a :: rest) (t : Txn) :
    answerOf s t = a := by
  simp [answerOf, h]

/-- `t` is `s` but for the bus side: events appended to the trace, the answers, the wire, the free values drawn,
and where the sequencer is. -/
def BusOnly (s t : State) : Prop :=
  ∃ tr an wi fi sq, t = { s with trace := s.trace ++ tr, answers := an, wire := wi, freeIdx := fi, seq := sq }

/-- `t` is `s` after an abort: the bus side, `STATUS`, and the failing transaction as the last event (R264). -/
def BusAbort (s t : State) : Prop :=
  ∃ u, BusOnly s u ∧ t = { u with status := .transportError } ∧ u.seq = Seq.idle ∧ endsFailed u

theorem BusOnly.refl (s : State) : BusOnly s s := ⟨[], s.answers, s.wire, s.freeIdx, s.seq, by simp⟩

theorem BusOnly.trans {s t u : State} (h : BusOnly s t) (h' : BusOnly t u) : BusOnly s u := by
  obtain ⟨tr, an, wi, fi, sq, rfl⟩ := h
  obtain ⟨tr', an', wi', fi', sq', rfl⟩ := h'
  exact ⟨tr ++ tr', an', wi', fi', sq', by simp⟩

theorem BusOnly.abort {s t u : State} (h : BusOnly s t) (h' : BusAbort t u) : BusAbort s u := by
  obtain ⟨v, hv, e, h1, h2⟩ := h'
  exact ⟨v, h.trans hv, e, h1, h2⟩

theorem recordOk_busOnly (t : Txn) (s : State) : BusOnly s (recordOk t s) :=
  ⟨[.bus t .ok], s.answers.tail, s.wire ++ [t], s.freeIdx, s.seq, rfl⟩

theorem setPhase_busOnly (ph : Phase) (s : State) : BusOnly s (setPhase ph s) :=
  ⟨[], s.answers, s.wire, s.freeIdx, (setPhase ph s).seq, by simp [setPhase]⟩

theorem setPage_busOnly (p : Nat) (s : State) : BusOnly s (setPage p s) :=
  ⟨[], s.answers, s.wire, s.freeIdx, (setPage p s).seq, by simp [setPage]⟩

theorem setStep_busOnly (k : Nat) (s : State) : BusOnly s (setStep k s) :=
  ⟨[], s.answers, s.wire, s.freeIdx, (setStep k s).seq, by simp [setStep]⟩

theorem delay_busOnly (ms : Nat) (s : State) : BusOnly s (delay ms s) := by
  unfold delay
  split
  · exact BusOnly.refl s
  · exact ⟨[.delay ms], s.answers, s.wire, s.freeIdx, s.seq, rfl⟩

theorem raise_busAbort (t : Txn) (s : State) : BusAbort s (raiseTransportError (recordFail t s)) :=
  ⟨{ recordFail t s with seq := Seq.idle }, ⟨[.bus t .fail], _, _, _, Seq.idle, rfl⟩, rfl, rfl,
    ⟨t, by simp [recordFail]⟩⟩

/-- A transaction touches the bus side only (R200). -/
theorem busSend_meets (t : Txn) (s : State) : (busSend t s).Meets (BusOnly s) (BusAbort s) := by
  rcases busSend_cases t s with ⟨_, e⟩ | ⟨_, e⟩ <;> rw [e]
  · exact recordOk_busOnly t s
  · exact raise_busAbort t s

/-- Sequencing procedures that touch the bus side only. -/
theorem Flow.Meets.bus {s : State} {r : Flow} {f : State → Flow} (h : r.Meets (BusOnly s) (BusAbort s))
    (hf : ∀ t, (f t).Meets (BusOnly t) (BusAbort t)) : (r.bind f).Meets (BusOnly s) (BusAbort s) :=
  h.bind fun t ht => (hf t).imp (fun _ h' => ht.trans h') fun _ h' => ht.abort h'

theorem Flow.Meets.after {s t : State} {r : Flow} (h : r.Meets (BusOnly t) (BusAbort t)) (hs : BusOnly s t) :
    r.Meets (BusOnly s) (BusAbort s) := h.imp (fun _ h' => hs.trans h') fun _ h' => hs.abort h'

/-! ## The flush -/

theorem flushPage_meets (p : Nat) (s : State) : (flushPage p s).Meets (BusOnly s) (BusAbort s) := by
  unfold flushPage
  refine Flow.Meets.bus ((busSend_meets _ _).after ((setPage_busOnly p s).trans (setPhase_busOnly .page _))) ?_
  intro t
  refine Flow.Meets.bus ((busSend_meets _ _).after (setPhase_busOnly .lowCol t)) ?_
  intro t
  refine Flow.Meets.bus ((busSend_meets _ _).after (setPhase_busOnly .highCol t)) ?_
  intro t
  exact (busSend_meets _ _).after (setPhase_busOnly .data t)

theorem flushLoop_meets (ps : List Nat) (s : State) : (flushLoop ps s).Meets (BusOnly s) (BusAbort s) := by
  induction ps generalizing s with
  | nil => exact BusOnly.refl s
  | cons p ps ih => exact Flow.Meets.bus (flushPage_meets p s) fun t => ih t

/-- A flush ends with nothing changed (the window was empty), with the bus side changed and the window reset, or
aborted with the window kept (R202, R206, R208). -/
theorem flushProc_meets (s : State) :
    (flushProc s).Meets (fun t => (isEmpty s = true ∧ t = s) ∨ (isEmpty s = false ∧ ∃ u, BusOnly s u ∧ t = dirtyReset u))
      (BusAbort s) := by
  unfold flushProc
  split
  · next h => exact .inl ⟨h, rfl⟩
  · next h =>
    refine (flushLoop_meets (flushPages s) s).bind fun u hu => ?_
    exact .inr ⟨by simpa using h, u, hu, rfl⟩

/-! ## The protocol procedures -/

theorem powerProc_meets (on : Bool) (s : State) : (powerProc on s).Meets (BusOnly s) (BusAbort s) := by
  unfold powerProc
  split
  · exact Flow.Meets.bus (busSend_meets _ s) fun t => busSend_meets _ t
  · exact busSend_meets _ s

theorem invertProc_meets (inv : Bool) (s : State) :
    (invertProc inv s).Meets (BusOnly { s with inv := inv }) (BusAbort { s with inv := inv }) :=
  busSend_meets _ _

theorem contrastProc_meets (v : Byte) (s : State) :
    (contrastProc v s).Meets (BusOnly { s with contrast := v }) (BusAbort { s with contrast := v }) :=
  busSend_meets _ _

theorem shutdownProc_meets (s : State) :
    (shutdownProc s).Meets (fun t => ∃ u, BusOnly s u ∧ t = { u with lstate := .poweredOff }) (BusAbort s) :=
  (busSend_meets _ s).bind fun u hu => ⟨u, hu, rfl⟩

/-! ## The init table -/

@[simp] theorem runInit_nil (k : Nat) (s : State) : runInit k [] s = .done s := rfl
@[simp] theorem runInit_cons (k : Nat) (a : InitAction) (rest : List InitAction) (s : State) :
    runInit k (a :: rest) s = (initStep k a s).bind (runInit (k + 1) rest) := rfl

/-- The delay at the end of a step touches the bus side only. -/
theorem stepDelay_busOnly (k : Nat) (s : State) : BusOnly s (stepDelay k s) := delay_busOnly _ s

/-- A step of the table ends as its action does, the delay added (R232). -/
theorem initStep_meets {k : Nat} {a : InitAction} {s : State} {P P' Q : State → Prop}
    (h : (initAction a (setStep k s)).Meets P Q) (hd : ∀ t u, P t → BusOnly t u → P' u) : (initStep k a s).Meets P' Q :=
  h.bind fun t ht => hd t _ ht (stepDelay_busOnly k t)

/-- What INIT finds of the controller (R267). -/
theorem regainController_cases (s : State) :
    (s.ctlLost = false ∧ regainController s = s) ∨
    (s.ctlLost = true ∧ regainController s = { forgetController s with wire := [], ctlLost := false }) := by
  cases h : s.ctlLost <;> simp [regainController, h]

/-! ## Whole operations -/

/-- An operation that is legal runs its body (R268). -/
theorem runOp_legal {op : Op} {s : State} (h : legal op s.lstate = true) (body : State → Flow) :
    runOp op body s = finish (body (begin op s)) := by
  simp [runOp, h]

/-- An operation that is not legal is refused (R270, R271). -/
theorem runOp_illegal {op : Op} {s : State} (h : legal op s.lstate = false) (body : State → Flow) :
    runOp op body s = refuse s := by
  simp [runOp, h]

@[simp] theorem finish_done (s : State) : finish (.done s) = freeResult (complete s) := rfl
@[simp] theorem finish_raised (s : State) : finish (.raised s) = freeResult s := rfl
@[simp] theorem finish_illegal (s : State) : finish (.illegal s) = refuse s := rfl

/-- What a reading operation can come to (R97, R137, R138). -/
theorem runRead_cases (op : Op) (value : State → Option Byte) (s : State) :
    (legal op s.lstate = true ∧ ∃ v, value s = some v ∧ runRead op value s = complete { s with result := v }) ∨
    runRead op value s = refuse s := by
  unfold runRead
  split
  · next h =>
    cases hv : value s with
    | none => exact .inr rfl
    | some v => exact .inl ⟨h, v, rfl, rfl⟩
  · exact .inr rfl

end Sys2Proof.Machine
end

