-- ==== Sys2Proof/Laws/Decode.lean ====
section
/-! SUPPORT. Small facts of the encoding tables. -/

namespace Sys2Proof

/-- The operation codes and their reading agree (R92). -/
theorem opOfCode_code (op : Op) : opOfCode op.code.toNat = some op := by cases op <;> rfl

/-- An assigned code is the code of the operation it names. -/
theorem code_of_opOfCode {n : Nat} {op : Op} (h : opOfCode n = some op) : op.code.toNat = n := by
  unfold opOfCode at h
  split at h <;> simp only [Option.some.injEq, reduceCtorEq] at h <;> subst h <;> rfl

@[simp] theorem modeOfBits_bits (m : Mode) : modeOfBits m.bits = some m := by cases m <;> rfl
@[simp] theorem rotOfBits_bits (r : Rot) : rotOfBits r.bits = r := by cases r <;> rfl
@[simp] theorem bits_rotOfBits (r : BitVec 2) : (rotOfBits r).bits = r := by revert r; decide

/-- `CMDSET_GK` has zeros in its field bits, "`CMDSET_GK` satisfies this" (R114). -/
theorem cmdSetGK_basesClear : cmdSetGK.basesClear = true := by decide

/-- No byte is two commands of `CMDSET_GK`. -/
theorem cmdSetGK_unambiguous : cmdSetGK.unambiguous = true := by decide

/-- A signed 16-bit operand survives its field (R94). -/
theorem toInt_i16 {v : Int} (h : fitsI16 v = true) : (i16 v).toInt = v := by
  unfold fitsI16 at h
  simp only [Bool.and_eq_true, decide_eq_true_eq] at h
  unfold i16
  rw [BitVec.toInt_ofInt, Int.bmod_eq_of_le] <;> omega

/-! The fields of a word are what it was put together from (R91). -/

@[simp] theorem opField_hostWord (op : BitVec 5) (m : BitVec 2) (a b c : BitVec 16) :
    opField (hostWord op m a b c) = op := by
  refine BitVec.eq_of_getLsbD_eq fun i hi => ?_
  simp only [opField, hostWord, BitVec.getLsbD_extractLsb', BitVec.getLsbD_append]
  interval_cases i <;> simp

@[simp] theorem modeField_hostWord (op : BitVec 5) (m : BitVec 2) (a b c : BitVec 16) :
    modeField (hostWord op m a b c) = m := by
  refine BitVec.eq_of_getLsbD_eq fun i hi => ?_
  simp only [modeField, hostWord, BitVec.getLsbD_extractLsb', BitVec.getLsbD_append]
  interval_cases i <;> simp

@[simp] theorem aField_hostWord (op : BitVec 5) (m : BitVec 2) (a b c : BitVec 16) :
    aField (hostWord op m a b c) = a := by
  refine BitVec.eq_of_getLsbD_eq fun i hi => ?_
  simp only [aField, hostWord, BitVec.getLsbD_extractLsb', BitVec.getLsbD_append]
  interval_cases i <;> simp

@[simp] theorem bField_hostWord (op : BitVec 5) (m : BitVec 2) (a b c : BitVec 16) :
    bField (hostWord op m a b c) = b := by
  refine BitVec.eq_of_getLsbD_eq fun i hi => ?_
  simp only [bField, hostWord, BitVec.getLsbD_extractLsb', BitVec.getLsbD_append]
  interval_cases i <;> simp

@[simp] theorem cField_hostWord (op : BitVec 5) (m : BitVec 2) (a b c : BitVec 16) :
    cField (hostWord op m a b c) = c := by
  refine BitVec.eq_of_getLsbD_eq fun i hi => ?_
  simp only [cField, hostWord, BitVec.getLsbD_extractLsb', BitVec.getLsbD_append]
  interval_cases i <;> simp

@[simp] theorem rsvField_hostWord (op : BitVec 5) (m : BitVec 2) (a b c : BitVec 16) :
    rsvField (hostWord op m a b c) = 0 := by
  refine BitVec.eq_of_getLsbD_eq fun i hi => ?_
  simp only [rsvField, hostWord, BitVec.getLsbD_extractLsb', BitVec.getLsbD_append]
  interval_cases i <;> simp

/-- A word with `rsv` zero is put together from its fields. -/
theorem hostWord_fields {w : Word} (h : rsvField w = 0) :
    hostWord (opField w) (modeField w) (aField w) (bField w) (cField w) = w := by
  refine BitVec.eq_of_getLsbD_eq fun i hi => ?_
  have hr : ∀ k, k < 9 → w.getLsbD (48 + k) = false := fun k hk => by
    have := congrArg (fun v : BitVec 9 => v.getLsbD k) h
    simpa [rsvField, BitVec.getLsbD_extractLsb', hk] using this
  simp only [hostWord, opField, modeField, aField, bField, cField, BitVec.getLsbD_append,
    BitVec.getLsbD_extractLsb']
  split
  · simp_all
  · split
    · next h1 h2 => simp only [h2, decide_true, Bool.true_and]; congr 1; omega
    · split
      · next h1 h2 h3 => simp only [h3, decide_true, Bool.true_and]; congr 1; omega
      · split
        · next h1 h2 h3 h4 =>
          have := hr (i - 16 - 16 - 16) h4
          have e : 48 + (i - 16 - 16 - 16) = i := by omega
          rw [e] at this
          simp [this]
        · split
          · next h1 h2 h3 h4 h5 => simp only [h5, decide_true, Bool.true_and]; congr 1; omega
          · have h6 : i - 16 - 16 - 16 - 9 - 2 < 5 := by omega
            simp only [h6, decide_true, Bool.true_and]; congr 1; omega

end Sys2Proof
end

