-- ==== Sys2Proof/Laws/Step.lean ====
section
/-! SUPPORT. What a step can find to do, said once for each agent, and what the controller may change. -/

namespace Sys2Proof.Machine

/-- Everything FBP can find at its command port (R96, R98, R300). -/
theorem fetchHost_cases (s : State) :
    (s.hostIn = [] ∧ fetchHost s = .settled s) ∨
    ∃ w rest, s.hostIn = w :: rest ∧
      ((busy s = true ∧ fetchHost s = .settled { s with hostIn := rest }) ∨
      (busy s = false ∧ ∃ i, decodeHost w = .ok i ∧ fetchHost s = .run i { s with hostIn := rest, opw := w }) ∨
      (busy s = false ∧ ∃ e, decodeHost w = .error e ∧
        fetchHost s = .settled (refuse { s with hostIn := rest }))) := by
  unfold fetchHost
  cases hw : s.hostIn with
  | nil => exact .inl ⟨rfl, rfl⟩
  | cons w rest =>
    refine .inr ⟨w, rest, rfl, ?_⟩
    cases hb : busy s with
    | true => exact .inl ⟨rfl, by simp⟩
    | false =>
      cases hd : decodeHost w with
      | ok i => exact .inr (.inl ⟨rfl, i, rfl, by simp [hd]⟩)
      | error e => exact .inr (.inr ⟨rfl, e, rfl, by simp [hd]⟩)

/-- What a bus decodes to is an instruction of the controller. -/
theorem decodeBus_op {cs : CmdSet} {bytes left : List Byte} {i : Instr} (h : decodeBus cs bytes = .ok (i, left)) :
    i.op = none := by
  have key : ∀ (c : Cmd) (b arg : Byte), (c.toInstr b arg).op = none := fun c b arg => by cases c <;> rfl
  unfold decodeBus at h
  split at h
  · cases h
  · split at h
    · cases h
    · split at h
      · split at h
        · cases h
        · cases h; exact key _ _ _
      · cases h; exact key _ _ _

/-- Everything a transaction can be to the controller (R77): a burst, an instruction, or a command that changes
nothing of it. -/
theorem fetchTxn_cases (txn : Txn) (s : State) :
    (∃ bytes, txn = .data bytes ∧ fetchTxn txn s = .settled (withController (storeBurst bytes) s)) ∨
    (∃ i f, i.op = none ∧ fetchTxn txn s = .run i { s with freeIdx := f }) ∨
    fetchTxn txn s = .settled s := by
  cases txn with
  | data bytes => exact .inl ⟨bytes, rfl, rfl⟩
  | cmd c args =>
    refine .inr ?_
    simp only [fetchTxn]
    cases h : decodeBus s.par.cmds (c :: args) with
    | ok p => exact .inl ⟨p.1, s.freeIdx, decodeBus_op (i := p.1) (left := p.2) h, rfl⟩
    | error e =>
      cases e with
      | empty => exact .inr rfl
      | unknownByte => exact .inr rfl
      | argumentMissing =>
        cases h : decodeBus s.par.cmds [c, Config.freeArg s.freeIdx] with
        | ok p => exact .inl ⟨p.1, s.freeIdx + 1, decodeBus_op (i := p.1) (left := p.2) h, by simp⟩
        | error e => exact .inr (by simp)

/-- Everything the controller can find on the bus (R77, R267): nothing, a transaction of no defined effect, or a
transaction of the reference consumer. -/
theorem fetchBus_cases (s : State) :
    (s.wire = [] ∧ fetchBus s = .settled s) ∨
    ∃ txn rest, s.wire = txn :: rest ∧
      ((s.ctlLost = true ∧ fetchBus s = .settled (forgetController { s with wire := rest })) ∨
      (s.ctlLost = false ∧ fetchBus s = fetchTxn txn { s with wire := rest })) := by
  unfold fetchBus
  cases hw : s.wire with
  | nil => exact .inl ⟨rfl, rfl⟩
  | cons txn rest =>
    refine .inr ⟨txn, rest, rfl, ?_⟩
    cases hl : s.ctlLost with
    | true => exact .inl ⟨rfl, by simp⟩
    | false => exact .inr ⟨rfl, by simp⟩

/-- What `step` does with what it finds. -/
theorem step_run {s t : State} {i : Instr} (h : fetch s = .run i t) : step s = exec i t := by
  simp [step, h]

theorem step_settled {s t : State} (h : fetch s = .settled t) : step s = .next t := by
  simp [step, h]

/-- FBP's turn. -/
theorem fetch_fbp {s : State} {rest : List Agent} (h : s.turns = .fbp :: rest) :
    fetch s = fetchHost (takeTurn s) := by
  simp [fetch, nextAgent, h]

/-- The controller's turn. -/
theorem fetch_controller {s : State} {rest : List Agent} (h : s.turns = .controller :: rest) :
    fetch s = fetchBus (takeTurn s) := by
  simp [fetch, nextAgent, h]

/-- A controller command changes the controller alone. -/
theorem controller_exec {i : Instr} (h : i.op = none) (s : State) : ∃ f, exec i s = .next (withController f s) := by
  cases i <;> first | exact ⟨_, rfl⟩ | simp [Instr.op] at h

/-- Of an indeterminate controller this much is known: its RAM is a canonical memory of 8 pages of 132 columns. -/
theorem indeterminate_ram (n : Nat) :
    (Controller.indeterminate n).ram.wf ∧ Memory.below (8 * ramColumns) (Controller.indeterminate n).ram := by
  simp only [Controller.indeterminate]
  refine Memory.foldl_write (Config.freeController n) _ Memory.wf_nil (fun _ h => by simp at h) fun a h => ?_
  rw [List.mem_range] at h
  exact h

/-- A data byte keeps the controller's RAM canonical and inside its 8 pages of 132 columns (R74, R77). -/
theorem storeByte_ram (b : Byte) {c : Controller} (h : c.ram.wf ∧ Memory.below (8 * ramColumns) c.ram) :
    (storeByte c b).ram.wf ∧ Memory.below (8 * ramColumns) (storeByte c b).ram := by
  unfold storeByte
  split
  · next hc =>
    refine ⟨Memory.write_wf h.1 _ _, Memory.write_below h.2 ?_ _⟩
    have := c.pp.isLt
    unfold ramIndex ramColumns at *
    omega
  · exact h

theorem storeBurst_ram (bytes : List Byte) {c : Controller} (h : c.ram.wf ∧ Memory.below (8 * ramColumns) c.ram) :
    (storeBurst bytes c).ram.wf ∧ Memory.below (8 * ramColumns) (storeBurst bytes c).ram := by
  unfold storeBurst
  induction bytes generalizing c with
  | nil => exact h
  | cons b bs ih => exact ih (storeByte_ram b h)

end Sys2Proof.Machine
end

