-- ==== Sys2Proof/Tests/Slice0.lean ====
section
/-! SUPPORT. The model's own tests: what WellFormed refuses, words written out from the spec's encodings, one-step
cases from 95_test_vectors.md, and a witness for the hypotheses of every obligation. -/

namespace Sys2Proof.Tests

open Sys2Proof Sys2Proof.Machine

/-! ## WellFormed refuses each ill-formed term -/

theorem test_wellFormed_setpixel :
    (Instr.setpixel 32768 0 .set).wellFormed = false ∧ (Instr.setpixel 0 (-32769) .set).wellFormed = false := by
  decide

theorem test_wellFormed_getpixel :
    (Instr.getpixel (-32769) 0).wellFormed = false ∧ (Instr.getpixel 0 32768).wellFormed = false := by decide

theorem test_wellFormed_rdbuf : (Instr.rdbuf 65536).wellFormed = false := by decide

theorem test_wellFormed_hspan :
    (Instr.hspan 32768 0 0 .set).wellFormed = false ∧ (Instr.hspan 0 32768 0 .set).wellFormed = false ∧
    (Instr.hspan 0 0 (-32769) .set).wellFormed = false := by decide

theorem test_wellFormed_vspan :
    (Instr.vspan (-32769) 0 0 .set).wellFormed = false ∧ (Instr.vspan 0 32768 0 .set).wellFormed = false ∧
    (Instr.vspan 0 0 32768 .set).wellFormed = false := by decide

theorem test_wellFormed_lhspan :
    (Instr.lhspan 32768 0 0 .set).wellFormed = false ∧ (Instr.lhspan 0 (-32769) 0 .set).wellFormed = false ∧
    (Instr.lhspan 0 0 32768 .set).wellFormed = false := by decide

theorem test_wellFormed_lvspan :
    (Instr.lvspan 32768 0 0 .set).wellFormed = false ∧ (Instr.lvspan 0 32768 0 .set).wellFormed = false ∧
    (Instr.lvspan 0 0 (-32769) .set).wellFormed = false := by decide

theorem test_wellFormed_rawcmd : (Instr.rawcmd 0x21 [1, 2, 3, 4]).wellFormed = false := by decide

/-- R114, each base byte with one bit set in its field. -/
theorem test_basesClear_refuses :
    { cmdSetGK with pageAddr := 0xB1 }.basesClear = false ∧
    { cmdSetGK with setLowColumn := 0x08 }.basesClear = false ∧
    { cmdSetGK with setHighColumn := 0x11 }.basesClear = false ∧
    { cmdSetGK with setStartLine := 0x60 }.basesClear = false := by decide

/-- Two commands on one byte, and a command on a byte another command's field reaches. -/
theorem test_unambiguous_refuses :
    { cmdSetGK with displayOn := 0xAE }.unambiguous = false ∧ { cmdSetGK with displayOn := 0xB3 }.unambiguous = false ∧
    cmdSetGK.unambiguous = true := by decide

/-- R8 and R232, one parameter out of range at a time. -/
theorem test_inRange_refuses :
    { Params.scenario with width := 0 }.inRange = false ∧ { Params.scenario with width := 257 }.inRange = false ∧
    { Params.scenario with height := 0 }.inRange = false ∧ { Params.scenario with height := 129 }.inRange = false ∧
    { Params.scenario with initDelay := [0, 0] }.inRange = false ∧
    { Params.scenario with initDelay := [0, 1] ++ List.replicate 20 0 }.inRange = false ∧
    { Params.scenario with cmds := { cmdSetGK with pageAddr := 0xB1 } }.inRange = false ∧
    Params.scenario.inRange = true := by decide

/-- R8, a panel too wide and a panel too high for the controller's RAM. -/
theorem test_wellFitted_refuses :
    { Params.scenario with colOffset := 5 }.wellFitted = false ∧
    { Params.scenario with pageOffset := 1 }.wellFitted = false ∧ Params.scenario.wellFitted = true := by decide

/-! ## Words from the spec's encodings (R91 to R93 and 95_test_vectors.md section 2.1) -/

/-- Format N, bit by bit: the operation code in bits 63..59, all else zero. -/
theorem test_decode_format_n :
    decodeHost 0b0000100000000000000000000000000000000000000000000000000000000000 = .ok .presetup ∧
    decodeHost 0b0001000000000000000000000000000000000000000000000000000000000000 = .ok .init ∧
    decodeHost 0b0001100000000000000000000000000000000000000000000000000000000000 = .ok .shutdown ∧
    decodeHost 0b0010000000000000000000000000000000000000000000000000000000000000 = .ok .release ∧
    decodeHost 0b1000000000000000000000000000000000000000000000000000000000000000 = .ok .flush := by decide

/-- Format P, bit by bit: mode in 58..57, x in 47..32, y in 31..16. -/
theorem test_decode_format_p :
    decodeHost (0b01000#5 ++ 0b01#2 ++ 0b000000000#9 ++ 0b0000000000000011#16 ++ 0b0000000000001010#16 ++
      0b0000000000000000#16) = .ok (.setpixel 3 10 .set) ∧
    decodeHost 0x4400FFFFFFFF0000 = .ok (.setpixel (-1) (-1) .invert) ∧
    decodeHost (0b01001#5 ++ 0b00#2 ++ 0b000000000#9 ++ 0b1000000000000000#16 ++ 0b0111111111111111#16 ++
      0b0000000000000000#16) = .ok (.getpixel (-32768) 32767) := by decide

/-- Formats M and I, bit by bit. -/
theorem test_decode_formats_m_and_i :
    decodeHost (0b01010#5 ++ 0b00#2 ++ 0b000000000#9 ++ 0b0#48) = .ok (.fill .clear) ∧
    decodeHost 0x5200000000000000 = .ok (.fill .set) ∧ decodeHost 0x5400000000000000 = .ok (.fill .invert) ∧
    decodeHost (0b01011#5 ++ 0b00#2 ++ 0b000000000#9 ++ 0b0#32 ++ 0b0000000010000011#16) = .ok (.rdbuf 131) := by decide

/-- Format S, bit by bit: x in 47..32, y in 31..16, len in 15..0. -/
theorem test_decode_format_s :
    decodeHost (0b01100#5 ++ 0b01#2 ++ 0b000000000#9 ++ 0b1111111111111111#16 ++ 0b0000000000000000#16 ++
      0b0000000000000011#16) = .ok (.hspan (-1) 0 3 .set) ∧
    decodeHost 0x6A0000050003000F = .ok (.vspan 5 3 15 .set) ∧
    decodeHost 0x7200000000000040 = .ok (.lhspan 0 0 64 .set) ∧
    decodeHost 0x7C00000200018000 = .ok (.lvspan 2 1 (-32768) .invert) := by decide

/-- Format V, bit by bit: the value in the low bits of `c`. -/
theorem test_decode_format_v :
    decodeHost (0b10001#5 ++ 0b00#2 ++ 0b000000000#9 ++ 0b0#32 ++ 0b0000000000000001#16) = .ok (.setpower true) ∧
    decodeHost 0x8800000000000000 = .ok (.setpower false) ∧ decodeHost 0x9000000000000001 = .ok (.setinvert true) ∧
    decodeHost 0x9800000000000020 = .ok (.setcontrast 0x20) ∧
    decodeHost 0xA000000000000001 = .ok (.setrotation .r1) ∧ decodeHost 0xA000000000000003 = .ok (.setrotation .r3) := by
  decide

/-- Format R, bit by bit: nargs in 58..57, cmd in 7..0, then the three argument bytes upwards. -/
theorem test_decode_format_r :
    decodeHost (0b10101#5 ++ 0b11#2 ++ 0b000000000#9 ++ 0b0#16 ++ 0b00000011#8 ++ 0b00000010#8 ++ 0b00000001#8 ++
      0b00100001#8) = .ok (.rawcmd 0x21 [0x01, 0x02, 0x03]) ∧
    decodeHost 0xA8000000000000A5 = .ok (.rawcmd 0xA5 []) ∧
    decodeHost 0xAA00000000007F81 = .ok (.rawcmd 0x81 [0x7F]) ∧
    decodeHost 0xAC00000000AA7F81 = .ok (.rawcmd 0x81 [0x7F, 0xAA]) := by decide

/-- Illegal words, each with its reason (V-E30 to V-E37). -/
theorem test_decode_rejects :
    decodeHost 0x0000000000000000 = .error .unassignedOp ∧ decodeHost 0x46000003000A0000 = .error .modeReserved ∧
    decodeHost 0x42010003000A0000 = .error .reservedNonzero ∧ decodeHost 0x4A000003000A0000 = .error .modeNonzero ∧
    decodeHost 0x8000000000000001 = .error .fieldNonzero ∧ decodeHost 0xA000000000000004 = .error .fieldNonzero ∧
    decodeHost 0xA800000000007FA5 = .error .fieldNonzero ∧ decodeHost 0xB000000000000000 = .error .unassignedOp := by
  decide

/-- The controller's commands with a field, bit by bit (R110, R111). -/
theorem test_decode_field_commands :
    decodeBus cmdSetGK [0b00000101] = .ok (.cmdSetLowColumn 5, []) ∧
    decodeBus cmdSetGK [0b00011000] = .ok (.cmdSetHighColumn 8, []) ∧
    decodeBus cmdSetGK [0b01000101] = .ok (.cmdSetStartLine 5, []) ∧
    decodeBus cmdSetGK [0b01111111] = .ok (.cmdSetStartLine 63, []) ∧
    decodeBus cmdSetGK [0b10110111] = .ok (.cmdPageAddr 7, []) := by decide

/-- The controller's commands with an argument byte (R110, R111; the bytes of program P4). -/
theorem test_decode_argument_commands :
    decodeBus cmdSetGK [0x81, 0x8F] = .ok (.cmdSetContrast 0x8F, []) ∧
    decodeBus cmdSetGK [0x8D, 0x14] = .ok (.cmdChargePump 0x14, []) ∧
    decodeBus cmdSetGK [0xA8, 0x3F] = .ok (.cmdSetMultiplex 0x3F, []) ∧
    decodeBus cmdSetGK [0xD3, 0x10] = .ok (.cmdSetDisplayOffset 0x10, []) ∧
    decodeBus cmdSetGK [0xD5, 0x80] = .ok (.cmdSetDisplayClockDiv 0x80, []) ∧
    decodeBus cmdSetGK [0xD9, 0xF1] = .ok (.cmdSetPrecharge 0xF1, []) ∧
    decodeBus cmdSetGK [0xDA, 0x12] = .ok (.cmdSetComPins 0x12, []) ∧
    decodeBus cmdSetGK [0xDB, 0x35] = .ok (.cmdSetVcomDetect 0x35, []) := by decide

/-- The controller's commands that are one whole byte (R110, R111). -/
theorem test_decode_plain_commands :
    decodeBus cmdSetGK [0xA1] = .ok (.cmdSegRemapFixed, []) ∧ decodeBus cmdSetGK [0xC8] = .ok (.cmdComScanFixed, []) ∧
    decodeBus cmdSetGK [0xA4] = .ok (.cmdDisplayAllOnResume, []) ∧
    decodeBus cmdSetGK [0xA6] = .ok (.cmdNormalDisplay, []) ∧ decodeBus cmdSetGK [0xA7] = .ok (.cmdInvertDisplay, []) ∧
    decodeBus cmdSetGK [0xAE] = .ok (.cmdDisplayOff, []) ∧ decodeBus cmdSetGK [0xAF] = .ok (.cmdDisplayOn, []) := by
  decide

/-- Bytes that are no command of the set, and a command without its argument. -/
theorem test_decode_bus_rejects :
    decodeBus cmdSetGK [] = .error .empty ∧ decodeBus cmdSetGK [0x20] = .error .unknownByte ∧
    decodeBus cmdSetGK [0x81] = .error .argumentMissing := by decide

/-! ## One step on a small state (95_test_vectors.md sections 2.2 to 2.7) -/

/-- A panel `w` by `h`, other parameters as in the scenario. -/
def panel (w h : Nat) : Params := { Params.scenario with width := w, height := h }

/-- A constructed machine on that panel, in a lifecycle state, with TRANSPORT's next answers. -/
def start (w h : Nat) (l : LState) (as : List Answer) : State :=
  { State.construct (panel w h) Unstated.zero with lstate := l, answers := as }

/-- An idle, active 128 by 64 machine with an all-zero framebuffer and a clean window. -/
def active (as : List Answer) : State := start 128 64 .active as

/-- `f` of the state an outcome reaches is `v`. -/
def gives {α : Type} [DecidableEq α] (o : Host.Outcome State Fault Refusal) (f : State → α) (v : α) : Bool :=
  match o with
  | .next t => decide (f t = v)
  | .fault _ => false
  | .refused _ => false

/-- A window from its four registers. -/
def win (x1 y1 x2 y2 : Nat) : Window := { x1 := x1, y1 := y1, x2 := x2, y2 := y2 }

/-- A failed command transaction. -/
def failed (c : Byte) (args : List Byte) : Event := .bus (.cmd c args) .fail

/-- A data burst answered `ok`. -/
def okData (bytes : List Byte) : Event := .bus (.data bytes) .ok

/-- P4 operation 1. -/
theorem test_presetup :
    gives (exec .presetup (start 128 64 .uninitialized [])) (fun t => (t.lstate, t.status, t.trace))
      (.uninitialized, .ok, []) = true := by decide

/-- V-L2: INIT failing at step 3. -/
theorem test_init_fails_at_step_3 :
    gives (exec .init (start 128 64 .uninitialized [.ok, .ok, .fail]))
      (fun t => (t.trace, t.lstate, t.muxratio, t.compins, t.contrast, t.status))
      ([okCmd 0xAE [], .delay 1, okCmd 0xD5 [0x80], failed 0xA8 [0x3F]], .poweredOff, 0x3F, 0, 0, .transportError) =
      true := by decide

/-- V-L5 and P4: steps 4 to 14 of an INIT with a start line and an offset, on a panel of the pinned size. -/
theorem test_init_commands :
    gives (exec .init { start 128 64 .uninitialized (List.replicate 48 .ok) with
        par := { panel 128 64 with dispOffset := 0x10, startLine := 0x45 } })
      (fun t => ((t.trace.drop 4).take 11, t.trace.length, t.lstate, t.win))
      ([okCmd 0x8D [0x14], okCmd 0xA1 [], okCmd 0xC8 [], okCmd 0xD3 [0x10], okCmd 0x45 [], okCmd 0xDA [0x12],
        okCmd 0x81 [0x8F], okCmd 0xD9 [0xF1], okCmd 0xDB [0x35], okCmd 0xA4 [], okCmd 0xA6 []], 49, .active,
        win 128 64 0 0) = true := by decide

/-- V-L4: SHUTDOWN. -/
theorem test_shutdown :
    gives (exec .shutdown (active [.ok])) (fun t => (t.trace, t.lstate)) ([okCmd 0xAE []], .poweredOff) = true ∧
    gives (exec .shutdown (active [.fail])) (fun t => (t.trace, t.lstate, t.status))
      ([failed 0xAE []], .active, .transportError) = true := by decide

/-- V-L3: RELEASE from `PoweredOff`, and refused from `Active`. -/
theorem test_release :
    gives (exec .release (start 128 64 .poweredOff [])) (fun t => (t.lstate, t.trace, t.status))
      (.hardwareReleased, [], .ok) = true ∧
    gives (exec .release (active [])) (fun t => (t.lstate, t.status, t.refusalMark)) (.active, .illegal, true) = true := by
  decide

/-- V-F1. -/
theorem test_setpixel :
    gives (exec (.setpixel 3 10 .set) (active [])) (fun t => (t.fb, t.win)) ([(131, 0x04)], win 3 10 3 10) = true := by
  decide

/-- V-G3: rotated, and out of the logical bounds. -/
theorem test_setpixel_rotated :
    gives (exec (.setpixel 63 127 .set) { active [] with rot := .r1 }) (fun t => t.fb) [(896, 0x80)] = true ∧
    gives (exec (.setpixel 64 0 .set) { active [] with rot := .r1 }) (fun t => (t.fb, t.win))
      ([], win 128 64 0 0) = true := by decide

/-- V-F2. -/
theorem test_getpixel :
    gives (exec (.getpixel 3 10) { active [] with fb := [(131, 0x04)] }) (fun t => t.result) 1 = true ∧
    gives (exec (.getpixel 3 11) { active [] with fb := [(131, 0x04)] }) (fun t => t.result) 0 = true ∧
    gives (exec (.getpixel (-1) 0) { active [] with fb := [(131, 0x04)] }) (fun t => t.result) 0 = true := by decide

/-- V-F8: all 30 bytes, padding bits too. -/
theorem test_fill :
    gives (exec (.fill .set) (start 10 20 .active [])) (fun t => (t.fb.map Prod.snd, t.fb.map Prod.fst, t.win))
      (List.replicate 30 0xFF, List.range 30, win 0 0 9 19) = true := by decide

/-- V-F7. -/
theorem test_rdbuf :
    gives (exec (.rdbuf 131) { active [] with fb := [(131, 0x04)] }) (fun t => t.result) 0x04 = true ∧
    gives (exec (.rdbuf 1023) { active [] with fb := [(131, 0x04)] }) (fun t => t.result) 0x00 = true ∧
    gives (exec (.rdbuf 1024) { active [] with fb := [(131, 0x04)] }) (fun t => t.status) .illegal = true := by decide

/-- V-S3 and V-S4. -/
theorem test_hspan :
    gives (exec (.hspan (-1) 0 3 .set) (active [])) (fun t => (t.fb, t.win)) ([(0, 1), (1, 1)], win 0 0 1 0) = true ∧
    gives (exec (.hspan 126 0 3 .set) (active [])) (fun t => (t.fb, t.win))
      ([(126, 1), (127, 1)], win 126 0 127 0) = true := by decide

/-- V-S6 and V-S12. -/
theorem test_vspan :
    gives (exec (.vspan 5 3 15 .set) (active [])) (fun t => (t.fb, t.win))
      ([(5, 0xF8), (133, 0xFF), (261, 0x03)], win 5 3 5 17) = true ∧
    gives (exec (.vspan 0 60 10 .set) (active [])) (fun t => (t.fb, t.win)) ([(896, 0xF0)], win 0 60 0 63) = true := by
  decide

/-- V-S8 (the bytes of its column) and V-S7. -/
theorem test_vspan_keeps_other_bits :
    gives (exec (.vspan 0 3 15 .invert) { active [] with fb := [(0, 0x55), (128, 0x55), (256, 0x55)] }) (fun t => t.fb)
      [(0, 0xAD), (128, 0xAA), (256, 0x56)] = true ∧
    gives (exec (.vspan 0 2 3 .set) (active [])) (fun t => t.fb) [(0, 0x1C)] = true := by decide

/-- V-G4: rotated half a turn and clipped. -/
theorem test_lhspan :
    gives (exec (.lhspan (-2) 0 5 .set) { active [] with rot := .r2 }) (fun t => (t.fb, t.win))
      ([(1021, 0x80), (1022, 0x80), (1023, 0x80)], win 125 63 127 63) = true := by decide

/-- P2 operation 4, on a clean framebuffer. -/
theorem test_lvspan :
    gives (exec (.lvspan 2 0 10 .set) { active [] with rot := .r1 }) (fun t => (t.fb.map Prod.fst, t.win))
      (List.range' 118 10, win 118 2 127 2) = true := by decide

/-- V-P1. -/
theorem test_flush :
    gives (exec .flush { active (List.replicate 4 .ok) with fb := [(131, 0x04)], win := win 3 10 3 10 })
      (fun t => (t.trace, t.win, t.status))
      ([okCmd 0xB1 [], okCmd 0x05 [], okCmd 0x10 [], okData [0x04]], win 128 64 0 0, .ok) = true := by decide

/-- P3 operation 3: the sixth transaction fails. -/
theorem test_flush_fails :
    gives (exec .flush { active (List.replicate 5 .ok ++ [.fail]) with
        fb := [(0, 1), (1, 1), (5, 0xF8), (133, 0xFF), (261, 0x03)], win := win 0 0 5 17 })
      (fun t => (t.trace, t.win, t.status))
      ([okCmd 0xB0 [], okCmd 0x02 [], okCmd 0x10 [], okData [1, 1, 0, 0, 0, 0xF8], okCmd 0xB1 [], failed 0x02 []],
        win 0 0 5 17, .transportError) = true := by decide

/-- V-P5 and V-P6. -/
theorem test_setpower :
    gives (exec (.setpower true) (active [.ok, .ok])) (fun t => t.trace) [okCmd 0xA4 [], okCmd 0xAF []] = true ∧
    gives (exec (.setpower false) (active [.ok])) (fun t => (t.trace, t.lstate)) ([okCmd 0xAE []], .active) = true ∧
    gives (exec (.setpower true) (active [.fail, .ok])) (fun t => (t.trace, t.status))
      ([failed 0xA4 []], .transportError) = true := by decide

/-- V-P5. -/
theorem test_setinvert :
    gives (exec (.setinvert true) (active [.ok])) (fun t => (t.inv, t.trace)) (true, [okCmd 0xA7 []]) = true ∧
    gives (exec (.setinvert false) { active [.ok] with inv := true }) (fun t => (t.inv, t.trace))
      (false, [okCmd 0xA6 []]) = true := by decide

/-- V-P5. -/
theorem test_setcontrast :
    gives (exec (.setcontrast 0x20) (active [.ok])) (fun t => (t.contrast, t.trace)) (0x20, [okCmd 0x81 [0x20]]) =
      true := by decide

/-- P2 operation 1. -/
theorem test_setrotation :
    gives (exec (.setrotation .r1) (active [])) (fun t => (t.rot, logicalWidth t, logicalHeight t, t.win))
      (.r1, 64, 128, win 128 64 0 0) = true := by decide

/-- V-P5: RAWCMD does not touch `CONTRAST`. -/
theorem test_rawcmd :
    gives (exec (.rawcmd 0x81 [0x7F]) (active [.ok])) (fun t => (t.contrast, t.trace)) (0, [okCmd 0x81 [0x7F]]) =
      true := by decide

/-- R77: the pointers from the bytes of V-P3 (`col = 129` is `01`, `18`) and V-P4 (page 7 is `B7`, page 8 selects
page 0). -/
theorem test_pointer_commands :
    gives (exec (.cmdSetHighColumn 8) { active [] with ctl := { Controller.zero with cp := 0x31 } })
      (fun t => t.ctl.cp) 0x81 = true ∧
    gives (exec (.cmdSetLowColumn 1) { active [] with ctl := { Controller.zero with cp := 0x8F } })
      (fun t => t.ctl.cp) 0x81 = true ∧
    gives (exec (.cmdPageAddr 7) (active [])) (fun t => t.ctl.pp) 7 = true ∧
    gives (exec (.cmdPageAddr 8) (active [])) (fun t => t.ctl.pp) 0 = true := by decide

/-- The commands with an argument, with the bytes of P4. -/
theorem test_argument_commands :
    gives (exec (.cmdSetContrast 0x8F) (active [])) (fun t => t.ctl.contrast) 0x8F = true ∧
    gives (exec (.cmdChargePump 0x14) (active [])) (fun t => t.ctl.chargePump) 0x14 = true ∧
    gives (exec (.cmdSetMultiplex 0x3F) (active [])) (fun t => t.ctl.multiplex) 0x3F = true ∧
    gives (exec (.cmdSetDisplayOffset 0x10) (active [])) (fun t => t.ctl.displayOffset) 0x10 = true ∧
    gives (exec (.cmdSetDisplayClockDiv 0x80) (active [])) (fun t => t.ctl.clockDiv) 0x80 = true ∧
    gives (exec (.cmdSetPrecharge 0xF1) (active [])) (fun t => t.ctl.precharge) 0xF1 = true ∧
    gives (exec (.cmdSetComPins 0x12) (active [])) (fun t => t.ctl.comPins) 0x12 = true ∧
    gives (exec (.cmdSetVcomDetect 0x35) (active [])) (fun t => t.ctl.vcomDetect) 0x35 = true ∧
    gives (exec (.cmdSetStartLine 5) (active [])) (fun t => t.ctl.startLine) 5 = true := by decide

/-- The commands that switch. -/
theorem test_switch_commands :
    gives (exec .cmdDisplayOn (active [])) (fun t => t.ctl.displayOn) true = true ∧
    gives (exec .cmdDisplayOff { active [] with ctl := { Controller.zero with displayOn := true } })
      (fun t => t.ctl.displayOn) false = true ∧
    gives (exec .cmdInvertDisplay (active [])) (fun t => t.ctl.inverted) true = true ∧
    gives (exec .cmdNormalDisplay { active [] with ctl := { Controller.zero with inverted := true } })
      (fun t => t.ctl.inverted) false = true ∧
    gives (exec .cmdDisplayAllOnResume (active [])) (fun t => t.ctl.showsRam) true = true ∧
    gives (exec .cmdSegRemapFixed (active [])) (fun t => t.ctl.segRemapSet) true = true ∧
    gives (exec .cmdComScanFixed (active [])) (fun t => t.ctl.comScanSet) true = true := by decide

/-- R77: data bytes from column 130 of page 2; the third is dropped. -/
theorem test_data_burst :
    gives (step { active [] with
        wire := [.data [0x11, 0x22, 0x33]], ctl := { Controller.zero with pp := 2, cp := 130 } })
      (fun t => (t.ctl.ram, t.ctl.cp, t.wire)) ([(394, 0x11), (395, 0x22)], 132, []) = true := by decide

/-- R267: after a failed INIT the commands of a later SETCONTRAST are taken, and the controller stays lost. -/
theorem test_lost_controller :
    gives (exec .init (start 1 1 .active [.fail])) (fun t => (t.ctlLost, t.wire)) (true, []) = true ∧
    gives (step { start 1 1 .poweredOff [] with ctlLost := true, wire := [.cmd 0x81 [0x20]] })
      (fun t => (t.ctlLost, t.wire)) (true, []) = true := by decide

/-- R232: delays named for steps 0, 17 and 20 as well as for step 1. -/
theorem test_init_delays :
    gives (exec .init { start 1 1 .uninitialized (List.replicate 20 .ok) with
        par := { panel 1 1 with initDelay := [7, 1] ++ List.replicate 15 0 ++ [3, 0, 0, 9] } })
      (fun t => (t.trace.take 3, t.trace.drop 16, t.lstate))
      ([.delay 7, okCmd 0xAE [], .delay 1],
        [okCmd 0xB0 [], okCmd 0x02 [], okCmd 0x10 [], okData [0], .delay 3, okCmd 0xA4 [], okCmd 0xAF [], .delay 9],
        .active) = true := by decide

/-- R98 and R300 at the command port: an illegal word, and a word presented while BUSY. -/
theorem test_port :
    gives (step { active [] with hostIn := [0] }) (fun t => (t.status, t.hostIn, t.trace)) (.illegal, [], []) = true ∧
    gives (step { active [] with
        hostIn := [0x5200000000000000], seq := { Seq.idle with op := some .flush } }) (fun t => (t.fb, t.win))
      ([], win 128 64 0 0) = true := by decide

/-! ## Witnesses: concrete states and operands that meet the hypotheses of the obligations -/

theorem witness_DecodeOfEncodeIsTheInstruction :
    cmdSetGK.basesClear = true ∧ cmdSetGK.unambiguous = true ∧
    (Instr.hspan (-32768) 32767 (-1) .invert).wellFormed = true ∧ (Instr.rdbuf 65535).wellFormed = true ∧
    (Instr.rawcmd 0xFF [0xFF, 0, 0xFF]).wellFormed = true ∧ (Instr.cmdSetStartLine 63).wellFormed = true := by decide

theorem witness_DecodedWordIsTheEncodingOfItsOperation :
    decodeHost 0xAE00000003020121 = .ok (.rawcmd 0x21 [0x01, 0x02, 0x03]) := by decide

theorem witness_OperationWordsHaveTheSpecValues : (65535 : Nat) < 65536 := by decide

theorem witness_MaskTablesFollowTheirFormulas : ∃ n b : Nat, n < 8 ∧ b < 8 ∧ 1 ≤ n := ⟨7, 7, by decide⟩

theorem witness_ApplyActsLaneByLane : ∃ n : Nat, n < 8 := ⟨7, by decide⟩

/-- The first case has the largest rectangle of the panel, which is also the whole range of each coordinate. -/
theorem witness_ExpandFoldsRectangles :
    ∃ (s : State) (x1 y1 x2 y2 : Nat), windowEmpty s ∧ x1 ≤ x2 ∧ x2 < s.par.width ∧ y1 ≤ y2 ∧ y2 < s.par.height :=
  ⟨start 10 20 .active [], 0, 0, 9, 19, rfl, by decide⟩

theorem witness_EmptyTestsAgree :
    (∃ s : State, 1 ≤ s.par.width ∧ 1 ≤ s.par.height ∧ WindowOk s ∧ s.win.x1 > s.win.x2) ∧
    ∃ s : State, 1 ≤ s.par.width ∧ 1 ≤ s.par.height ∧ WindowOk s ∧ ¬ s.win.x1 > s.win.x2 :=
  ⟨⟨start 1 1 .active [], by decide, by decide, .inl rfl, by decide⟩,
    ⟨{ start 1 1 .active [] with win := win 0 0 0 0 }, by decide, by decide, .inr ⟨by decide, by decide, by decide, by decide⟩,
      by decide⟩⟩

/-- Panels at both ends of R8's ranges. -/
theorem witness_InvariantHoldsAtConstruction :
    (panel 1 1).inRange = true ∧ (panel 256 128).inRange = true ∧ Unstated.zero.fb.wf ∧
    Memory.below 1 Unstated.zero.fb ∧ Unstated.zero.ctl.ram.wf ∧ Memory.below (8 * 132) Unstated.zero.ctl.ram :=
  ⟨by decide, by decide, by decide, by simp [Memory.below, Unstated.zero], by decide,
    by simp [Memory.below, Unstated.zero, Controller.zero]⟩

/-- A constructed machine on a panel in range is in order in every lifecycle state. -/
theorem inv_start (w h : Nat) (l : LState) (as : List Answer) (hp : (panel w h).inRange = true) :
    Inv (start w h l as) where
  params := hp
  window := .inl rfl
  idle := rfl
  fb := ⟨(by decide : Memory.wf []), by simp [Memory.below, start, State.construct, Unstated.zero]⟩
  ram := ⟨(by decide : Memory.wf []),
    by simp [Memory.below, start, State.construct, Unstated.zero, Controller.zero]⟩
  error := by simp [start, State.construct]
  quiet := by simp [start, State.construct]
  lost := by simp [start, State.construct]

/-- The invariant says nothing of what HOST presents. -/
theorem inv_host {s : State} (h : Inv s) (ws : List Word) : Inv { s with hostIn := ws } :=
  ⟨h.params, h.window, h.idle, h.fb, h.ram, h.error, h.quiet, h.lost⟩

/-- A state in order, and one in which the step fails a transaction. -/
theorem witness_EveryStepKeepsTheInvariant :
    ∃ s t : State, Inv s ∧ step s = .next t ∧ t.status = .transportError :=
  ⟨{ active [.fail] with hostIn := [0x8800000000000001] }, _,
    inv_host (inv_start 128 64 .active [.fail] (by decide)) [0x8800000000000001], rfl, rfl⟩

theorem witness_EveryStepFromAnOrderlyStateCompletes : Inv (start 256 128 .uninitialized []) :=
  inv_start 256 128 .uninitialized [] (by decide)

/-- Three steps from construction: SETPIXEL 0, 0 leaves a one-pixel window. -/
theorem witness_WindowInvariantOnEveryRun :
    ∃ t, core.run 3 { State.construct (panel 10 20) Unstated.zero with
        hostIn := [0x0800000000000000, 0x4200000000000000], answers := [.ok], turns := [.fbp] } = .next t ∧
      t.win = win 0 0 0 0 :=
  ⟨_, rfl, rfl⟩

/-- A step of FBP and one of the controller. -/
theorem witness_TraceGrowsAndParametersStay :
    (∃ t, step { active [.ok] with hostIn := [0x8800000000000000] } = .next t ∧ t.trace = [okCmd 0xAE []]) ∧
    ∃ t, step { active [] with wire := [.cmd 0x45 []] } = .next t ∧ t.ctl.startLine = 5 :=
  ⟨⟨_, rfl, rfl⟩, ⟨_, rfl, rfl⟩⟩

/-- FILL INVERT, a refused operation, then a legal FILL CLEAR: the run goes on and stays without a meaning. -/
theorem witness_RefusedRunsHaveNoMeaning :
    (∃ t, core.run 1 { active [] with hostIn := [0x5400000000000000, 0x5000000000000000] } = .next t ∧
      t.refusalMark = true) ∧
    (∃ t, core.run 2 { active [] with hostIn := [0x5400000000000000, 0x5000000000000000] } = .next t ∧
      t.status = .ok ∧ t.refusalMark = true) ∧
    (runMeaning 1 { active [] with hostIn := [0x5000000000000000] }).isSome = true :=
  ⟨⟨_, rfl, rfl⟩, ⟨_, rfl, rfl, rfl⟩, rfl⟩

theorem witness_OnlyTheLastTransactionCanFail :
    (∃ t, exec (.setpower true) (active [.ok, .fail]) = .next t ∧
      t.trace = [okCmd 0xA4 [], failed 0xAF []] ∧ t.status = .transportError) ∧
    (∃ t, exec (.setpower true) (active [.ok, .ok]) = .next t ∧ t.status = .ok) ∧ Instr.op (.setpower true) ≠ none :=
  ⟨⟨_, rfl, rfl, rfl⟩, ⟨_, rfl, rfl⟩, by decide⟩

/-- Each row of the table. -/
theorem witness_LifecycleMovesOnlyAsTabled :
    (∃ t, exec .init (start 10 20 .uninitialized (List.replicate 64 .ok)) = .next t ∧ t.lstate = .active) ∧
    (∃ t, exec .init (start 10 20 .active [.fail]) = .next t ∧ t.lstate = .poweredOff) ∧
    (∃ t, exec .shutdown (active [.ok]) = .next t ∧ t.lstate = .poweredOff) ∧
    (∃ t, exec .release (start 10 20 .poweredOff []) = .next t ∧ t.lstate = .hardwareReleased) ∧
    ∃ t, exec .flush (active []) = .next t ∧ t.lstate = .active :=
  ⟨⟨_, rfl, rfl⟩, ⟨_, rfl, rfl⟩, ⟨_, rfl, rfl⟩, ⟨_, rfl, rfl⟩, ⟨_, rfl, rfl⟩⟩

theorem witness_HardwareReleasedIsTerminal :
    ∃ s t : State, s.lstate = .hardwareReleased ∧ step s = .next t ∧ t.status = .illegal :=
  ⟨{ start 10 20 .hardwareReleased [] with hostIn := [0x4800000000000000] }, _, rfl, rfl, rfl⟩

/-- One state of each row of R271's table that is not listed for its operation. -/
theorem witness_OperationsOutsideTheirStatesAreRefused :
    LState.active ∉ legalStates .presetup ∧ LState.hardwareReleased ∉ legalStates .init ∧
    LState.uninitialized ∉ legalStates .shutdown ∧ LState.active ∉ legalStates .release ∧
    LState.hardwareReleased ∉ legalStates .setpixel ∧ LState.uninitialized ∉ legalStates .flush ∧
    Instr.op (.rawcmd 0 []) = some .rawcmd ∧ LState.uninitialized ∉ legalStates .rawcmd := by decide

/-- The first index outside the buffer. -/
theorem witness_FillInvertAndOutsideReadsAreRefused :
    (active []).par.width * (((active []).par.height + 7) / 8) ≤ 1024 := by decide

/-- An operation that fails its transaction, an INIT that is refused, one that completes from a lost controller, one
that fails. -/
theorem witness_HostOperationsTouchInputsAndControllerOnlySo :
    (∃ t, exec .flush { active [.fail] with win := win 0 0 0 0 } = .next t ∧ Instr.op .flush ≠ none ∧ t.answers = []) ∧
    (∃ t, exec .init (start 1 1 .hardwareReleased []) = .next t ∧ t.status = .illegal) ∧
    (∃ t, exec .init { start 1 1 .poweredOff (List.replicate 20 .ok) with ctlLost := true } = .next t ∧
      t.status = .ok) ∧
    ∃ t, exec .init (start 1 1 .active [.fail]) = .next t ∧ t.status = .transportError :=
  ⟨⟨_, rfl, by decide, rfl⟩, ⟨_, rfl, rfl⟩, ⟨_, rfl, rfl⟩, ⟨_, rfl, rfl⟩⟩

theorem witness_BufferOperationsIssueNoTransaction :
    (∃ t, exec (.setpixel 0 0 .set) (active []) = .next t ∧ t.fb = [(0, 1)]) ∧
    (∃ t, exec (.setrotation .r3) (active []) = .next t ∧ t.rot = .r3) ∧
    (∃ t, exec (.getpixel 0 0) (active []) = .next t ∧ t.result = 0) ∧
    ∃ t, exec .release (start 10 20 .poweredOff []) = .next t ∧ t.lstate = .hardwareReleased :=
  ⟨⟨_, rfl, rfl⟩, ⟨_, rfl, rfl⟩, ⟨_, rfl, rfl⟩, ⟨_, rfl, rfl⟩⟩

theorem witness_BusOperationsWriteOnlyTheirRegister :
    (∃ t, exec (.setinvert true) (active [.ok]) = .next t ∧ t.inv = true) ∧
    (∃ t, exec (.setcontrast 1) (active [.ok]) = .next t ∧ t.contrast = 1) ∧
    (∃ t, exec .shutdown (active [.ok]) = .next t ∧ t.lstate = .poweredOff) ∧
    ∃ t, exec .flush { active (List.replicate 4 .ok) with win := win 0 0 0 0 } = .next t ∧ t.win = win 128 64 0 0 :=
  ⟨⟨_, rfl, rfl⟩, ⟨_, rfl, rfl⟩, ⟨_, rfl, rfl⟩, ⟨_, rfl, rfl⟩⟩

theorem witness_PhysicalOperationsIgnoreRotation :
    (∃ t, exec (.hspan 0 0 2 .set) (active []) = .next t ∧ t.fb = [(0, 1), (1, 1)]) ∧
    ∃ t, exec .flush { active (List.replicate 4 .ok) with win := win 0 0 0 0 } = .next t ∧ t.win = win 128 64 0 0 :=
  ⟨⟨_, rfl, rfl⟩, ⟨_, rfl, rfl⟩⟩

/-- The last pixel of the panel changes and lies in the window. -/
theorem witness_WindowCoversEveryChangedPixel :
    ∃ t, exec (.setpixel 9 19 .invert) (start 10 20 .active []) = .next t ∧ WindowOk (start 10 20 .active []) ∧
      (start 10 20 .active []).fb.wf ∧ pixel t 9 19 ≠ pixel (start 10 20 .active []) 9 19 ∧ t.win = win 9 19 9 19 :=
  ⟨_, rfl, .inl rfl, by decide, by decide, rfl⟩

/-- The last logical pixel of a rotated panel, and the first point outside on each side. -/
theorem witness_SetpixelWritesItsPixel :
    ∃ s : State, s.lstate ≠ .hardwareReleased ∧ s.fb.wf ∧ (19 : Int) < logicalWidth s ∧ (9 : Int) < logicalHeight s ∧
      ¬ ((20 : Int) < logicalWidth s) ∧ ¬ ((10 : Int) < logicalHeight s) ∧ ¬ ((0 : Int) ≤ -1) :=
  ⟨{ start 10 20 .active [] with rot := .r1 }, by decide, by decide, by decide, by decide, by decide, by decide,
    by decide⟩

theorem witness_GetpixelReadsItsPixel :
    ∃ s : State, s.lstate ≠ .hardwareReleased ∧ (9 : Int) < logicalWidth s ∧ (19 : Int) < logicalHeight s ∧
      ¬ ((10 : Int) < logicalWidth s) ∧ ¬ ((20 : Int) < logicalHeight s) :=
  ⟨{ start 10 20 .uninitialized [] with rot := .r2 }, by decide⟩

theorem witness_PixelsRoundTripAtEveryRotation :
    ∃ s : State, s.rot = .r3 ∧ s.lstate ≠ .hardwareReleased ∧ s.fb.wf ∧ (19 : Int) < logicalWidth s ∧
      (9 : Int) < logicalHeight s :=
  ⟨{ start 10 20 .active [] with rot := .r3 }, rfl, by decide, by decide, by decide, by decide⟩

/-- A panel of one pixel is the lower end; the range of a byte index ends at 29 on 10 by 20. -/
theorem witness_FillSetsEveryByteAndDirtiesThePanel :
    (∃ s : State, s.lstate ≠ .hardwareReleased ∧ WindowOk s ∧ s.par.width = 1 ∧ s.par.height = 1) ∧
    ∃ s : State, s.lstate ≠ .hardwareReleased ∧ WindowOk s ∧ 1 ≤ s.par.width ∧ 1 ≤ s.par.height ∧
      29 < s.par.width * ((s.par.height + 7) / 8) ∧ s.par.width * ((s.par.height + 7) / 8) ≤ 30 ∧
      (19 : Int) < logicalWidth s ∧ (9 : Int) < logicalHeight s :=
  ⟨⟨start 1 1 .active [], by decide, .inl rfl, rfl, rfl⟩,
    ⟨{ start 10 20 .active [] with rot := .r1 }, by decide, .inl rfl, by decide, by decide, by decide, by decide,
      by decide, by decide⟩⟩

/-- The last index of the buffer. -/
theorem witness_RdbufReadsItsByte :
    ∃ s : State, s.lstate ≠ .hardwareReleased ∧ 1023 < s.par.width * ((s.par.height + 7) / 8) :=
  ⟨active [], by decide⟩

theorem witness_RotationTablesAreTheSpecs :
    ({ start 10 20 .active [] with rot := .r2 } : State).rot = .r2 ∧
    ({ start 10 20 .active [] with rot := .r1 } : State).rot = .r1 := ⟨rfl, rfl⟩

/-- A point of the panel at each corner of its range, at an odd and an even rotation. -/
theorem witness_XformIsABijectionOfThePanel :
    (∃ s : State, s.rot = .r1 ∧ (9 : Int) < s.par.width ∧ (19 : Int) < s.par.height ∧ logicalWidth s = 20) ∧
    ∃ s : State, s.rot = .r2 ∧ (9 : Int) < s.par.width ∧ (19 : Int) < s.par.height ∧ logicalWidth s = 10 :=
  ⟨⟨{ start 10 20 .active [] with rot := .r1 }, rfl, by decide, by decide, rfl⟩,
    ⟨{ start 10 20 .active [] with rot := .r2 }, rfl, by decide, by decide, rfl⟩⟩

/-- The shortest span. -/
theorem witness_XformSpanCoversTheImages : ∃ len : Int, 1 ≤ len := ⟨1, by decide⟩

/-- A run cut at both ends, a run cut to nothing, a row and a column just off the panel. -/
theorem witness_ClippingKeepsExactlyThePartOnThePanel :
    hClip 10 20 (-1) 19 12 = some (0, 19, 10) ∧ hClip 10 20 (-3) 0 3 = none ∧ hClip 10 20 0 20 5 = none ∧
    vClip 10 20 9 (-1) 22 = some (9, 0, 20) ∧ vClip 10 20 0 20 5 = none ∧ vClip 10 20 (-1) 0 5 = none := by decide

theorem witness_HspanWritesExactlyItsClippedPixels :
    ∃ s : State, s.lstate ≠ .hardwareReleased ∧ s.fb.wf ∧
      hClip s.par.width s.par.height (-1) 19 12 = some (0, 19, 10) ∧ hClip s.par.width s.par.height 0 0 0 = none :=
  ⟨start 10 20 .active [], by decide, by decide, by decide, by decide⟩

/-- A whole column of the panel, and one pixel in it. -/
theorem witness_VerticalWriteChangesExactlyItsRows :
    ∃ (w h x y len : Nat) (m : Memory), m.wf ∧ x < w ∧ 1 ≤ len ∧ y + len ≤ h ∧ y ≤ 19 ∧ 19 < y + len :=
  ⟨10, 20, 9, 0, 20, [(9, 0x55)], by decide, by decide, by decide, by decide, by decide, by decide⟩

theorem witness_VspanWritesExactlyItsClippedPixels :
    ∃ s : State, s.lstate ≠ .hardwareReleased ∧ s.fb.wf ∧
      vClip s.par.width s.par.height 9 (-1) 22 = some (9, 0, 20) ∧ vClip s.par.width s.par.height 10 0 5 = none :=
  ⟨start 10 20 .active [], by decide, by decide, by decide, by decide⟩

/-- Three pixels, in another order. -/
theorem witness_LogicalSpansEqualTheirPixels :
    ∃ (s : State) (len : Int) (l : List Nat), s.lstate ≠ .hardwareReleased ∧ s.fb.wf ∧
      l.Perm (List.range len.toNat) :=
  ⟨{ start 10 20 .active [] with rot := .r1 }, 3, [2, 0, 1], by decide, by decide, by decide⟩

theorem witness_FlushOfAnEmptyWindowSendsNothing :
    ∃ s : State, (s.lstate = .poweredOff ∨ s.lstate = .active) ∧ isEmpty s = true :=
  ⟨start 10 20 .poweredOff [], by decide⟩

/-- The whole panel and a window of one pixel. -/
theorem witness_FlushSendsTheWindowAndResetsIt :
    (∃ s : State, (s.lstate = .poweredOff ∨ s.lstate = .active) ∧ windowInPanel s ∧
      answersOk s (flushEvents s) = true ∧ s.win = win 0 0 9 19) ∧
    ∃ s : State, (s.lstate = .poweredOff ∨ s.lstate = .active) ∧ windowInPanel s ∧
      answersOk s (flushEvents s) = true ∧ s.win = win 9 19 9 19 :=
  ⟨⟨{ start 10 20 .active (List.replicate 12 .ok) with win := win 0 0 9 19 }, .inr rfl,
      ⟨by decide, by decide, by decide, by decide⟩, by decide, rfl⟩,
    ⟨{ start 10 20 .poweredOff (List.replicate 4 .ok) with win := win 9 19 9 19 }, .inl rfl,
      ⟨by decide, by decide, by decide, by decide⟩, by decide, rfl⟩⟩

/-- The very first transaction fails, and the very last. -/
theorem witness_FailedFlushKeepsTheWindow :
    (∃ (s : State) (evs : List Event) (x : Txn), s.lstate = .active ∧ windowInPanel s ∧
      (evs ++ [.bus x .ok]) <+: flushEvents s ∧ answersOk s evs = true ∧ answerOf (after s evs) x = .fail ∧ evs = []) ∧
    ∃ (s : State) (evs : List Event) (x : Txn), s.lstate = .active ∧ windowInPanel s ∧
      (evs ++ [.bus x .ok]) <+: flushEvents s ∧ answersOk s evs = true ∧ answerOf (after s evs) x = .fail ∧
      evs.length = 3 :=
  ⟨⟨{ start 10 20 .active [.fail] with win := win 3 10 3 10 }, [], .cmd 0xB1 [], rfl,
      ⟨by decide, by decide, by decide, by decide⟩, by decide, by decide, by decide, rfl⟩,
    ⟨{ start 10 20 .active [.ok, .ok, .ok, .fail] with win := win 3 10 3 10 },
      [okCmd 0xB1 [], okCmd 0x05 [], okCmd 0x10 []], .data [0], rfl,
      ⟨by decide, by decide, by decide, by decide⟩, by decide, by decide, by decide, rfl⟩⟩

/-- Two pages of ten columns, the last of each on the panel's edge. -/
theorem witness_FlushHasItsCountedSize :
    ∃ s t : State, s.lstate = .active ∧ windowInPanel s ∧ s.win = win 0 8 9 19 ∧ exec .flush s = .next t ∧
      t.status = .ok ∧ t.trace.length = 8 :=
  ⟨{ start 10 20 .active (List.replicate 8 .ok) with win := win 0 8 9 19 }, _, rfl,
    ⟨by decide, by decide, by decide, by decide⟩, rfl, rfl, rfl, rfl⟩

/-- The last row at an even and at an odd rotation. -/
theorem witness_FullWidthSpanDirtiesThePagesOfItsRotation :
    (∃ s : State, s.lstate ≠ .hardwareReleased ∧ 1 ≤ s.par.width ∧ 1 ≤ s.par.height ∧ windowEmpty s ∧
      (19 : Int) < logicalHeight s ∧ s.rot = .r0) ∧
    ∃ s : State, s.lstate ≠ .hardwareReleased ∧ 1 ≤ s.par.width ∧ 1 ≤ s.par.height ∧ windowEmpty s ∧
      (9 : Int) < logicalHeight s ∧ s.rot = .r3 :=
  ⟨⟨start 10 20 .active [], by decide, by decide, by decide, rfl, by decide, rfl⟩,
    ⟨{ start 10 20 .active [] with rot := .r3 }, by decide, by decide, by decide, rfl, by decide, rfl⟩⟩

/-- One state meets every clause's hypothesis. -/
theorem witness_CommandOperationsSendTheirCommands :
    ∃ s : State, (s.lstate = .poweredOff ∨ s.lstate = .active) ∧
      answersOk s [okCmd s.par.cmds.displayAllOnResume [], okCmd s.par.cmds.displayOn []] = true ∧
      answersOk s [okCmd s.par.cmds.displayOff []] = true ∧ answersOk s [okCmd s.par.cmds.invertDisplay []] = true ∧
      answersOk s [okCmd s.par.cmds.normalDisplay []] = true ∧
      answersOk s [okCmd s.par.cmds.setContrast [0xFF]] = true ∧ answersOk s [okCmd 0xFF [1, 2, 3]] = true :=
  ⟨active [.ok, .ok], by decide⟩

/-- One state meets every clause's hypothesis but the second's, which another meets. -/
theorem witness_CommandOperationsAbortOnFailure :
    (∃ s : State, (s.lstate = .poweredOff ∨ s.lstate = .active) ∧
      answerOf s (.cmd s.par.cmds.displayAllOnResume []) = .fail ∧ answerOf s (.cmd s.par.cmds.displayOff []) = .fail ∧
      answerOf s (.cmd s.par.cmds.invertDisplay []) = .fail ∧ answerOf s (.cmd s.par.cmds.normalDisplay []) = .fail ∧
      answerOf s (.cmd s.par.cmds.setContrast [0xFF]) = .fail ∧ answerOf s (.cmd 0xFF [1, 2, 3]) = .fail) ∧
    ∃ s : State, (s.lstate = .poweredOff ∨ s.lstate = .active) ∧
      answersOk s [okCmd s.par.cmds.displayAllOnResume []] = true ∧
      answerOf (after s [okCmd s.par.cmds.displayAllOnResume []]) (.cmd s.par.cmds.displayOn []) = .fail :=
  ⟨⟨active [.fail], by decide⟩, ⟨active [.ok, .fail], by decide⟩⟩

theorem witness_PresetupReleaseAndSetrotationTouchNothingElse :
    (start 10 20 .uninitialized []).lstate = .uninitialized ∧ (start 10 20 .poweredOff []).lstate = .poweredOff ∧
    (start 10 20 .uninitialized []).lstate ≠ .hardwareReleased := by decide

/-- On the smallest panel: 14 commands, one page of four transactions, two commands. From a controller of its own state
and from a lost one. -/
theorem witness_InitRunsItsTable :
    (∃ s : State, s.lstate ≠ .hardwareReleased ∧ s.par.inRange = true ∧ WindowOk s ∧
      answersOk s (initEvents s) = true ∧ s.par.width = 1 ∧ s.par.height = 1 ∧ s.ctlLost = false) ∧
    ∃ s : State, s.lstate ≠ .hardwareReleased ∧ s.par.inRange = true ∧ WindowOk s ∧
      answersOk s (initEvents s) = true ∧ s.ctlLost = true :=
  ⟨⟨start 1 1 .uninitialized (List.replicate 20 .ok), by decide, by decide, .inl rfl, by decide, rfl, rfl, rfl⟩,
    ⟨{ start 1 1 .poweredOff (List.replicate 20 .ok) with ctlLost := true }, by decide, by decide, .inl rfl, by decide,
      rfl⟩⟩

/-- The position in the events of an INIT of the 1 by 1 panel: it fails there, at the given step. -/
def InitFailsAt (j k : Nat) : Prop :=
  ∃ (s : State) (pre : List (Nat × Event)) (x : Txn), s.lstate ≠ .hardwareReleased ∧ s.par.inRange = true ∧
    WindowOk s ∧ (pre ++ [(k, .bus x .ok)]) <+: initSteps s ∧ answersOk s (pre.map Prod.snd) = true ∧
    answerOf (after s (pre.map Prod.snd)) x = .fail ∧ pre.length = j

/-- Where event `j` of the INIT is a transaction, scripted answers make it fail there. -/
theorem initFailsAt_of {j k : Nat} {x : Txn} (as : List Answer)
    (hx : (initSteps (start 1 1 .active as))[j]? = some (k, .bus x .ok))
    (ha : answersOk (start 1 1 .active as) (((initSteps (start 1 1 .active as)).take j).map Prod.snd) = true)
    (hf : answerOf (after (start 1 1 .active as) (((initSteps (start 1 1 .active as)).take j).map Prod.snd)) x = .fail) :
    InitFailsAt j k := by
  refine ⟨start 1 1 .active as, _, x, by simp [start], (by decide : (panel 1 1).inRange = true), .inl rfl, ?_, ha, hf, ?_⟩
  · have h := List.take_prefix (j + 1) (initSteps (start 1 1 .active as))
    rwa [List.take_add_one, hx] at h
  · have := (List.getElem?_eq_some_iff.mp hx).1
    simp; omega

/-! The first step, each step at which a register's value in the statement switches, the flush, the last step. -/

theorem witness_FailedInitLeavesTheTabledState_1 : InitFailsAt 0 1 :=
  initFailsAt_of (x := .cmd 0xAE []) ([.fail]) (by decide) (by decide) (by decide)

theorem witness_FailedInitLeavesTheTabledState_3 : InitFailsAt 3 3 :=
  initFailsAt_of (x := .cmd 0xA8 [0]) (List.replicate 2 .ok ++ [.fail]) (by decide) (by decide) (by decide)

theorem witness_FailedInitLeavesTheTabledState_9 : InitFailsAt 9 9 :=
  initFailsAt_of (x := .cmd 0xDA [(profile 1 1).1]) (List.replicate 8 .ok ++ [.fail])
    (by simp [initSteps, initConfigSteps, initStepEvents, start, State.construct, panel, Params.scenario, okCmd, cmdSetGK])
    (by decide) (by decide)

theorem witness_FailedInitLeavesTheTabledState_14 : InitFailsAt 14 14 :=
  initFailsAt_of (x := .cmd 0xA6 []) (List.replicate 13 .ok ++ [.fail]) (by decide) (by decide) (by decide)

theorem witness_FailedInitLeavesTheTabledState_17 : InitFailsAt 15 17 :=
  initFailsAt_of (x := .cmd 0xB0 []) (List.replicate 14 .ok ++ [.fail]) (by decide) (by decide) (by decide)

theorem witness_FailedInitLeavesTheTabledState_18 : InitFailsAt 19 18 :=
  initFailsAt_of (x := .cmd 0xA4 []) (List.replicate 18 .ok ++ [.fail]) (by decide) (by decide) (by decide)

theorem witness_FailedInitLeavesTheTabledState_19 : InitFailsAt 20 19 :=
  initFailsAt_of (x := .cmd 0xAF []) (List.replicate 19 .ok ++ [.fail]) (by decide) (by decide) (by decide)

/-- Two bits, side by side. -/
def twoBits : Asset := { w := 2, h := 1, bits := [true, true] }

/-- A splash of `a` below height 65, or of nothing, its first column left of the panel. -/
def splashOf (a : Option Asset) (clears : Bool) : Splash :=
  { threshold := 65, below := a, atOrAbove := none, x0 := -1, y0 := 0, clearsFirst := clears }

/-- `NOSPLASH`, a splash without an asset for this height, and no splash at all. -/
theorem witness_NoSplashInitSendsAZeroedPanel :
    (∃ s t : State, s.lstate ≠ .hardwareReleased ∧ s.par.inRange = true ∧ WindowOk s ∧ NoSplashAsset s.par ∧
      exec .init s = .next t ∧ t.status = .ok ∧ s.par.noSplash = true) ∧
    (∃ s t : State, s.lstate ≠ .hardwareReleased ∧ s.par.inRange = true ∧ WindowOk s ∧ NoSplashAsset s.par ∧
      exec .init s = .next t ∧ t.status = .ok ∧ s.par.noSplash = false ∧ s.par.splash ≠ none) ∧
    NoSplashAsset (panel 1 1) :=
  ⟨⟨{ start 1 1 .uninitialized (List.replicate 20 .ok) with par := { panel 1 1 with noSplash := true } }, _, by decide,
      by decide, .inl rfl, .inl rfl, rfl, rfl, rfl⟩,
    ⟨{ start 1 1 .active (List.replicate 20 .ok) with par := { panel 1 1 with splash := some (splashOf none true) } }, _, by decide,
      by decide, .inl rfl, .inr (.inr ⟨_, rfl, by decide, by decide⟩), rfl, rfl, rfl, by decide⟩,
    .inr (.inl rfl)⟩

/-- An INIT that clears and completes: the second bit falls on the panel's one pixel. -/
theorem witness_SplashBlitIsItsSetpixels_completes :
    ∃ s t : State, s.lstate ≠ .hardwareReleased ∧ s.par.inRange = true ∧ WindowOk s ∧ s.fb.wf ∧
      SplashAssetIs s.par (splashOf (some twoBits) true) twoBits ∧ exec .init s = .next t ∧ t.status = .ok ∧
      t.fb = [(0, 1)] :=
  ⟨{ start 1 1 .uninitialized (List.replicate 20 .ok) with
      par := { panel 1 1 with splash := some (splashOf (some twoBits) true) } }, _, by decide, by decide, .inl rfl,
    by decide, ⟨rfl, rfl, fun _ => rfl, by decide⟩, rfl, rfl, rfl⟩

/-- An INIT that does not clear and fails in its flush. -/
theorem witness_SplashBlitIsItsSetpixels_fails :
    ∃ s t : State, s.lstate ≠ .hardwareReleased ∧ s.par.inRange = true ∧ WindowOk s ∧ s.fb.wf ∧
      SplashAssetIs s.par (splashOf (some twoBits) false) twoBits ∧ exec .init s = .next t ∧
      t.trace = s.trace ++ (initConfigSteps s.par).map Prod.snd ++ [] ++ [failed 0xB0 []] ∧
      isEmpty (initDrawn s) = false ∧ ([] ++ [okCmd 0xB0 []]) <+: flushEvents (initDrawn s) ∧ t.win = win 0 0 0 0 :=
  ⟨{ start 128 64 .uninitialized (List.replicate 14 .ok ++ [.fail]) with
      par := { panel 128 64 with splash := some (splashOf (some twoBits) false) } }, _, by decide, by decide, .inl rfl,
    by decide, ⟨rfl, rfl, fun _ => rfl, by decide⟩, rfl, by decide, by decide, by decide, by decide⟩

/-- A burst that starts on the last column: its first byte is stored, its second dropped. By the default order and at a
named turn. -/
theorem witness_DataBurstFillsConsecutiveColumns :
    (∃ (s : State) (bytes : List Byte) (rest : List Txn), s.ctl.ram.wf ∧ s.ctlLost = false ∧ s.turns = [] ∧
      s.wire = .data bytes :: rest ∧
      bytes[0]? = some 0x11 ∧ s.ctl.cp.toNat + 0 ≤ 131 ∧ ¬ s.ctl.cp.toNat + 1 ≤ 131) ∧
    ∃ (s : State) (bytes : List Byte) (rest : List Txn), s.ctl.ram.wf ∧ s.ctlLost = false ∧
      s.turns.head? = some .controller ∧ s.wire = .data bytes :: rest ∧ bytes[0]? = some 0x11 ∧
      s.ctl.cp.toNat + 0 ≤ 131 :=
  ⟨⟨{ active [] with wire := [.data [0x11, 0x22]], ctl := { Controller.zero with cp := 131 } }, [0x11, 0x22], [],
      by decide, rfl, rfl, rfl, by decide, by decide, by decide⟩,
    ⟨{ active [] with turns := [.controller, .fbp], wire := [.data [0x11]] }, [0x11], [], by decide, rfl, rfl, rfl,
      by decide, by decide⟩⟩

/-- A panel of 3 columns and one page at the far corner of the RAM, all of it dirty. -/
def cornerPanel : State :=
  { start 3 8 .active (List.replicate 4 .ok) with
    par := { panel 3 8 with colOffset := 129, pageOffset := 7 }, win := win 0 0 2 7 }

theorem witness_FlushedWindowReachesTheControllerRam :
    ∃ s : State, Inv s ∧ (s.lstate = .poweredOff ∨ s.lstate = .active) ∧ windowInPanel s ∧ s.par.wellFitted = true ∧
      s.par.cmds.unambiguous = true ∧ s.ctlLost = false ∧ s.wire = [] ∧ s.turns = [] ∧ answersOk s (flushEvents s) = true ∧
      s.win.x2 + s.par.colOffset.toNat = 131 ∧ s.win.y2 / 8 + s.par.pageOffset.toNat = 7 := by
  have hw : windowInPanel cornerPanel := ⟨by decide, by decide, by decide, by decide⟩
  refine ⟨cornerPanel, ⟨by decide, .inr hw, rfl, ⟨by decide, ?_⟩, ⟨by decide, ?_⟩, ?_, ?_, ?_⟩, .inr rfl, hw, by decide,
    by decide, rfl, rfl, rfl, by decide, by decide, by decide⟩
  · simp [Memory.below, cornerPanel, start, State.construct, Unstated.zero]
  · simp [Memory.below, cornerPanel, start, State.construct, Unstated.zero, Controller.zero]
  · simp [cornerPanel, start, State.construct]
  · simp [cornerPanel, start]
  · simp [cornerPanel, start, State.construct]

/-- The active machine with `ws` at its command port, by the default order. -/
def atPort (ws : List Word) : State := { active [] with hostIn := ws }

/-- By the default order and by a named turn. -/
theorem witness_StepRunsTheOperationPresented :
    (atPort [0x8000000000000000]).hostIn = 0x8000000000000000 :: [] ∧ (atPort [0x8000000000000000]).seq.op = none ∧
    decodeHost 0x8000000000000000 = .ok .flush ∧
    ((atPort [0x8000000000000000]).turns = [] ∧ (atPort [0x8000000000000000]).wire = []) ∧
    { atPort [0x8000000000000000] with turns := [.fbp], wire := [.data []] }.turns.head? = some .fbp := by decide

/-- The active machine with `txns` under way, by the default order. -/
def onWire (txns : List Txn) : State := { active [] with wire := txns }

/-- Each clause: a command with a byte left over, one without its argument, a byte that is no command; a command and a
burst at a lost controller; nothing under way. By the default order and at a named turn. -/
theorem witness_StepRunsTheCommandOnTheBus :
    (onWire []).turns = [] ∧ (onWire []).ctlLost = false ∧
    (onWire [.cmd 0x81 [0x20, 0x30]]).wire = .cmd 0x81 [0x20, 0x30] :: [] ∧
    decodeBus (onWire [.cmd 0x81 [0x20, 0x30]]).par.cmds [0x81, 0x20, 0x30] = .ok (.cmdSetContrast 0x20, [0x30]) ∧
    (onWire [.cmd 0x81 []]).wire = .cmd 0x81 [] :: [] ∧
    decodeBus (onWire [.cmd 0x81 []]).par.cmds [0x81] = .error .argumentMissing ∧
    (onWire [.cmd 0x20 [0x81]]).wire = .cmd 0x20 [0x81] :: [] ∧
    decodeBus (onWire [.cmd 0x20 [0x81]]).par.cmds [0x20, 0x81] = .error .unknownByte ∧
    { onWire [.cmd 0x81 []] with ctlLost := true }.wire = .cmd 0x81 [] :: [] ∧
    { onWire [.data [1]] with ctlLost := true }.wire = .data [1] :: [] ∧
    (onWire []).wire = [] ∧ { onWire [] with turns := [.controller] }.turns.head? = some .controller := by decide

/-- Each clause: no word, a word while BUSY, an illegal word; by the default order and at a named turn. -/
theorem witness_StepWithoutALegalWordChangesNothing :
    ((atPort []).turns = [] ∧ (atPort []).wire = []) ∧ { atPort [] with turns := [.fbp] }.turns.head? = some .fbp ∧
    (atPort []).hostIn = [] ∧
    { atPort [0x5200000000000000] with seq := { Seq.idle with op := some .flush } }.hostIn =
      0x5200000000000000 :: [] ∧
    { atPort [0x5200000000000000] with seq := { Seq.idle with op := some .flush } }.seq.op ≠ none ∧
    (atPort [0]).hostIn = 0 :: [] ∧ (atPort [0]).seq.op = none ∧ decodeHost 0 = .error .unassignedOp := by decide

theorem witness_PlacedTableWordIsTheNextInstruction :
    decodeTableWord 64 0x4400FFFFFFFF0000 = some (.setpixel (-1) (-1) .invert) ∧
    decodeTableWord 8 0xFFBF = some (.cmdPageAddr 15) ∧ (active []).par.cmds = cmdSetGK := by decide

end Sys2Proof.Tests
end

section
/-! The mask tables of R54 by their formulas and by their bits, and the window that construction leaves (R24). -/

namespace Sys2Proof.Machine

/-! ### The mask tables (R54)

Two finite checks read the tables, one for the numbers in `maskLower` and one for the complement that ties `maskUpper`
to it; the bits of both masks and the formula of `upper` follow from these two. -/

theorem lower_toNat : ∀ n < 8, (lower n).toNat = 2 ^ n - 1 := by decide

theorem upper_eq_not_lower : ∀ n < 8, 1 ≤ n → upper n = ~~~lower (8 - n) := by decide

@[simp] theorem upper_zero : upper 0 = 0 := rfl

theorem lower_getLsbD {n : Nat} (hn : n < 8) (b : Nat) : (lower n).getLsbD b = decide (b < n) := by
  rw [← BitVec.testBit_toNat, lower_toNat n hn, Nat.testBit_two_pow_sub_one]

/-- R54's formula. The complement covers every `n` but 0, where it would take the mask of 8 bits, which the table does
not hold. -/
theorem upper_toNat {n : Nat} (hn : n < 8) : (upper n).toNat = 255 - (2 ^ (8 - n) - 1) := by
  rcases Nat.eq_zero_or_pos n with rfl | hpos
  · simp
  · rw [upper_eq_not_lower n hn hpos, BitVec.toNat_not, lower_toNat (8 - n) (by omega)]

theorem upper_getLsbD {n b : Nat} (hn : n < 8) (hb : b < 8) : (upper n).getLsbD b = decide (8 - n ≤ b) := by
  rcases Nat.eq_zero_or_pos n with rfl | hpos
  · simp [hb]
  · rw [upper_eq_not_lower n hn hpos, BitVec.getLsbD_not, lower_getLsbD (by omega)]
    simp only [hb, decide_true, Bool.true_and, ← decide_not, Nat.not_lt]

/-- Settles O6: the values are the tables themselves, the formulas and the bits are the lemmas above. -/
theorem maskTablesFollowTheirFormulas : Obligations.MaskTablesFollowTheirFormulas :=
  ⟨rfl, rfl, fun n hn => ⟨lower_toNat n hn, upper_toNat hn, fun _ hb => ⟨upper_getLsbD hn hb, upper_eq_not_lower n hn⟩⟩⟩

/-! ### Construction (R24) -/

@[simp] theorem construct_win (p : Params) (u : Unstated) :
    (State.construct p u).win = { x1 := p.width, y1 := p.height, x2 := 0, y2 := 0 } := rfl

/-- Settles O8: construction sets the window from the panel size alone, whatever `u` holds. -/
theorem constructionEmptiesTheWindow : Obligations.ConstructionEmptiesTheWindow := construct_win

end Sys2Proof.Machine
end

section
/-! The two tests for the empty dirty window (R153) under the window invariant (R22). -/

namespace Sys2Proof.Machine

theorem isEmpty_iff (s : State) : isEmpty s = true ↔ s.win.x2 < s.win.x1 := decide_eq_true_iff

/-- In the encoding of R23 both tests say empty, on a panel with at least one column and one row. -/
theorem windowEmpty.lt {s : State} (h : windowEmpty s) (hw : 1 ≤ s.par.width) (hh : 1 ≤ s.par.height) :
    s.win.x2 < s.win.x1 ∧ s.win.y2 < s.win.y1 := by
  rw [h]
  exact ⟨hw, hh⟩

/-- On a rectangle of the panel both tests say not empty. -/
theorem windowInPanel.not_lt {s : State} (h : windowInPanel s) :
    ¬ s.win.x2 < s.win.x1 ∧ ¬ s.win.y2 < s.win.y1 := by
  obtain ⟨hx, -, hy, -⟩ := h
  exact ⟨hx.not_gt, hy.not_gt⟩

/-- The horizontal and the vertical test agree (R153), by the two cases of R22. -/
theorem WindowOk.lt_iff {s : State} (h : WindowOk s) (hw : 1 ≤ s.par.width) (hh : 1 ≤ s.par.height) :
    s.win.x2 < s.win.x1 ↔ s.win.y2 < s.win.y1 := by
  rcases h with hempty | hpanel
  · obtain ⟨hx, hy⟩ := hempty.lt hw hh
    exact iff_of_true hx hy
  · obtain ⟨hx, hy⟩ := hpanel.not_lt
    exact iff_of_false hx hy

/-- The window that `DirtyReset` leaves (R152) tests empty. -/
theorem isEmpty_dirtyReset {s : State} (hw : 1 ≤ s.par.width) : isEmpty (dirtyReset s) = true := by
  rw [isEmpty_iff, dirtyReset_win]
  exact hw

/-- Settles O11: the horizontal test is the definition, and R22's two cases decide both tests alike. -/
theorem emptyTestsAgree : Obligations.EmptyTestsAgree :=
  fun s hw hh => ⟨isEmpty_iff s, fun h => h.lt_iff hw hh, isEmpty_dirtyReset hw⟩

end Sys2Proof.Machine
end

section
/-! The logical dimensions (R161) and the point transform (R162), one equation for each row of their tables. -/

namespace Sys2Proof.Machine

/-- The even rows of R161: the logical screen lies along the panel. -/
theorem logicalSize_of_r0_or_r2 {s : State} (h : s.rot = .r0 ∨ s.rot = .r2) :
    logicalWidth s = s.par.width ∧ logicalHeight s = s.par.height := by
  rcases h with h | h
  · simp [logicalWidth, logicalHeight, h]
  · simp [logicalWidth, logicalHeight, h]

/-- The odd rows of R161: the logical screen lies across the panel. -/
theorem logicalSize_of_r1_or_r3 {s : State} (h : s.rot = .r1 ∨ s.rot = .r3) :
    logicalWidth s = s.par.height ∧ logicalHeight s = s.par.width := by
  rcases h with h | h
  · simp [logicalWidth, logicalHeight, h]
  · simp [logicalWidth, logicalHeight, h]

@[simp] theorem xform_r0 (w h : Nat) (x y : Int) : xform w h .r0 x y = (x, y) := rfl

@[simp] theorem xform_r1 (w h : Nat) (x y : Int) : xform w h .r1 x y = (w - 1 - y, x) := rfl

@[simp] theorem xform_r2 (w h : Nat) (x y : Int) : xform w h .r2 x y = (w - 1 - x, h - 1 - y) := rfl

@[simp] theorem xform_r3 (w h : Nat) (x y : Int) : xform w h .r3 x y = (y, h - 1 - x) := rfl

/-- Settles O33: the rows of R161 by the parity of the rotation, and the four rows of R162. -/
theorem rotationTablesAreTheSpecs : Obligations.RotationTablesAreTheSpecs :=
  ⟨fun _ => ⟨logicalSize_of_r0_or_r2, logicalSize_of_r1_or_r3⟩,
    fun w h x y => ⟨xform_r0 w h x y, xform_r1 w h x y, xform_r2 w h x y, xform_r3 w h x y⟩⟩

end Sys2Proof.Machine
end

section
/-! The vertical span writer: the three-region write of R188 against the rows of R187, and VSPAN (R185, R189).

Every region of the write is a read-modify-write of one byte of the column under a mask that holds a run of bits. So the
regions are runs of rows that follow each other, and the write is their composition. -/

namespace Sys2Proof.Machine

/-! ### Bits under a mask (R19) -/

/-- `Apply` acts on the bits the mask holds and on no other. -/
theorem applyMode_getLsbD (mode : Mode) (v mask : Byte) {b : Nat} (hb : b < 8) :
    (applyMode mode v mask).getLsbD b = if mask.getLsbD b then modeBit mode (v.getLsbD b) else v.getLsbD b := by
  cases mode with
  | set =>
    rw [applyMode, BitVec.getLsbD_or]
    cases mask.getLsbD b <;> simp [modeBit]
  | clear =>
    rw [applyMode, BitVec.getLsbD_and, BitVec.getLsbD_not]
    cases mask.getLsbD b <;> simp [modeBit, hb]
  | invert =>
    rw [applyMode, BitVec.getLsbD_xor]
    cases mask.getLsbD b <;> simp [modeBit]

theorem byte_ff_getLsbD {b : Nat} (hb : b < 8) : (0xFF : Byte).getLsbD b = true := by
  revert b; decide

/-- The leading mask holds the span's rows of its first byte, which are rows `k` and on (R188). -/
theorem leadingMask_getLsbD {k len b : Nat} (hk : 1 ≤ k) (hk8 : k < 8) (hb : b < 8) :
    (leadingMask k len).getLsbD b = decide (k ≤ b ∧ b < k + len) := by
  unfold leadingMask
  split
  · rw [BitVec.getLsbD_and, upper_getLsbD (by omega) hb, lower_getLsbD (by omega), ← Bool.decide_and]
    exact decide_eq_decide.2 (by omega)
  · rw [upper_getLsbD (by omega) hb]
    exact decide_eq_decide.2 (by omega)

/-- A whole byte, "written directly" in R188, is the byte under a full mask. -/
theorem wholeByte_eq_modify (mode : Mode) (i : Nat) (m : Memory) : wholeByte mode i m = m.modify mode i 0xFF := by
  cases mode with
  | set => exact congrArg (m.write i) BitVec.or_allOnes.symm
  | clear => exact congrArg (m.write i) BitVec.and_zero.symm
  | invert => rfl

/-! ### Rows of a column -/

/-- A page further down the column (R60). -/
theorem columnIndex_add_width (w x p : Nat) : x + p * w + w = x + (p + 1) * w := by
  rw [Nat.succ_mul, Nat.add_assoc]

/-- `m'` is `m` after rows `lo` to `hi - 1` of column `x` took `mode`, in a framebuffer `w` columns wide (R187). -/
structure ColumnWritten (w x : Nat) (mode : Mode) (lo hi : Nat) (m m' : Memory) : Prop where
  inColumn : ∀ p b, b < 8 → (m'.read (x + p * w)).getLsbD b =
    if lo ≤ 8 * p + b ∧ 8 * p + b < hi then modeBit mode ((m.read (x + p * w)).getLsbD b)
    else (m.read (x + p * w)).getLsbD b
  offColumn : ∀ a, (∀ p, a ≠ x + p * w) → m'.read a = m.read a

section ColumnWritten

variable {w x lo mid hi : Nat} {mode : Mode} {m m' m'' : Memory}

theorem ColumnWritten.refl : ColumnWritten w x mode lo lo m m where
  inColumn _ _ _ := (if_neg (by omega)).symm
  offColumn _ _ := rfl

/-- Two runs of rows, the second where the first ends. -/
theorem ColumnWritten.trans (hlo : lo ≤ mid) (hhi : mid ≤ hi) (h : ColumnWritten w x mode lo mid m m')
    (h' : ColumnWritten w x mode mid hi m' m'') : ColumnWritten w x mode lo hi m m'' where
  inColumn p b hb := by
    rw [h'.inColumn p b hb, h.inColumn p b hb]
    by_cases hmid : 8 * p + b < mid
    · rw [if_neg (by omega)]
      exact if_congr (by omega) rfl rfl
    · rw [if_neg (c := lo ≤ 8 * p + b ∧ 8 * p + b < mid) (by omega)]
      exact if_congr (by omega) rfl rfl
  offColumn a ha := (h'.offColumn a ha).trans (h.offColumn a ha)

/-- A row of the run takes the mode. -/
theorem ColumnWritten.row (h : ColumnWritten w x mode lo hi m m') {r : Nat} (hlo : lo ≤ r) (hhi : r < hi) :
    (m'.read (x + r / 8 * w)).getLsbD (r % 8) = modeBit mode ((m.read (x + r / 8 * w)).getLsbD (r % 8)) := by
  rw [h.inColumn (r / 8) (r % 8) (Nat.mod_lt r (by omega)), Nat.div_add_mod r 8, if_pos ⟨hlo, hhi⟩]

/-- A bit that is no row of the run keeps its value. -/
theorem ColumnWritten.other (h : ColumnWritten w x mode lo hi m m') {a b : Nat} (hb : b < 8)
    (hn : ∀ r, lo ≤ r → r < hi → ¬ (a = x + r / 8 * w ∧ b = r % 8)) :
    (m'.read a).getLsbD b = (m.read a).getLsbD b := by
  by_cases ha : ∃ p, a = x + p * w
  · obtain ⟨p, rfl⟩ := ha
    have hdiv : (8 * p + b) / 8 = p := by omega
    have hmod : b = (8 * p + b) % 8 := by omega
    have hout : ¬ (lo ≤ 8 * p + b ∧ 8 * p + b < hi) := fun hrow =>
      hn (8 * p + b) hrow.1 hrow.2 ⟨by rw [hdiv], hmod⟩
    rw [h.inColumn p b hb, if_neg hout]
  · rw [h.offColumn a (not_exists.1 ha)]

/-! ### The regions of the write (R188) -/

/-- One byte of the column under a mask that holds its bits `k` to `j - 1`. -/
theorem columnWritten_modify (hw : 0 < w) (hm : m.wf) (p : Nat) {k j : Nat} {mask : Byte} (hj : j ≤ 8)
    (hmask : ∀ b < 8, mask.getLsbD b = decide (k ≤ b ∧ b < j)) :
    ColumnWritten w x mode (8 * p + k) (8 * p + j) m (m.modify mode (x + p * w) mask) where
  inColumn q b hb := by
    rw [Memory.read_modify hm]
    by_cases hpq : p = q
    · subst hpq
      rw [if_pos rfl, applyMode_getLsbD mode _ _ hb, hmask b hb]
      simp only [decide_eq_true_eq, add_le_add_iff_left, add_lt_add_iff_left]
    · have hne : x + p * w ≠ x + q * w := fun e => hpq (Nat.eq_of_mul_eq_mul_right hw (Nat.add_left_cancel e))
      rw [if_neg hne, if_neg (by omega)]
  offColumn a ha := by rw [Memory.read_modify hm, if_neg (ha p).symm]

theorem columnWritten_wholeBytes (hw : 0 < w) (hm : m.wf) (p n : Nat) :
    ColumnWritten w x mode (8 * p) (8 * (p + n)) m (wholeBytes w mode n (x + p * w) m) := by
  induction n generalizing p m with
  | zero => exact .refl
  | succ n ih =>
    have hend : 8 * (p + (n + 1)) = 8 * (p + 1 + n) := by omega
    have hbyte : ColumnWritten w x mode (8 * p) (8 * (p + 1)) m (wholeByte mode (x + p * w) m) := by
      rw [wholeByte_eq_modify]
      exact columnWritten_modify (k := 0) hw hm p le_rfl fun b hb => by
        rw [byte_ff_getLsbD hb]
        simp [hb]
    rw [wholeBytes, columnIndex_add_width, hend]
    exact hbyte.trans (by omega) (by omega) (ih (wholeByte_wf mode _ hm) (p + 1))

theorem columnWritten_vWriteAligned (hw : 0 < w) (hm : m.wf) (p rem : Nat) :
    ColumnWritten w x mode (8 * p) (8 * p + rem) m (vWriteAligned w mode (x + p * w) rem m) := by
  have hwhole := columnWritten_wholeBytes (x := x) (mode := mode) hw hm p (rem / 8)
  unfold vWriteAligned
  split
  · next hrem =>
    have hend : 8 * p + rem = 8 * (p + rem / 8) := by omega
    rw [hend]
    exact hwhole
  · have hlast : x + p * w + rem / 8 * w = x + (p + rem / 8) * w := by rw [Nat.add_mul]; omega
    have hend : 8 * p + rem = 8 * (p + rem / 8) + rem % 8 := by omega
    simp only [hlast, hend]
    refine hwhole.trans (by omega) (by omega) ?_
    exact columnWritten_modify (k := 0) hw (wholeBytes_wf w mode _ _ hm) _ (by omega) fun b _ => by
      simp [lower_getLsbD (Nat.mod_lt rem (by omega))]

/-- The three-region write is the write of its rows: aligned, or a leading byte that the span ends in or goes past. -/
theorem columnWritten_vWrite (hw : 0 < w) (hm : m.wf) (y len : Nat) :
    ColumnWritten w x mode y (y + len) m (vWrite w mode x y len m) := by
  unfold vWrite pixelIndex
  simp only
  split
  · next hk =>
    have hy : y = 8 * (y / 8) := by omega
    have := columnWritten_vWriteAligned (x := x) (mode := mode) hw hm (y / 8) len
    rwa [← hy] at this
  · next hk =>
    have hmask : ∀ b < 8, (leadingMask (y % 8) len).getLsbD b =
        decide (y % 8 ≤ b ∧ b < y % 8 + min len (8 - y % 8)) := fun b hb => by
      rw [leadingMask_getLsbD (by omega) (by omega) hb]
      exact decide_eq_decide.2 (by omega)
    have hlead := columnWritten_modify (x := x) (mode := mode) hw hm (y / 8) (by omega) hmask
    rw [← Nat.add_assoc, Nat.div_add_mod] at hlead
    by_cases hin : len ≤ 8 - y % 8
    · rw [min_eq_left hin] at hlead ⊢
      rw [Nat.sub_self]
      exact hlead
    · have hmid : y + min len (8 - y % 8) = 8 * (y / 8 + 1) := by omega
      have hend : y + len = 8 * (y / 8 + 1) + (len - min len (8 - y % 8)) := by omega
      rw [hmid] at hlead
      rw [columnIndex_add_width, hend]
      exact hlead.trans (by omega) (by omega) (columnWritten_vWriteAligned hw (Memory.modify_wf hm _ _ _) _ _)

end ColumnWritten

/-- Settles O39: the rows of the run and the other bits, by what the three regions write together. -/
theorem verticalWriteChangesExactlyItsRows : Obligations.VerticalWriteChangesExactlyItsRows := by
  intro w _ x y len mode m hm hx _ _
  have hcol := columnWritten_vWrite (x := x) (mode := mode) (Nat.zero_lt_of_lt hx) hm y len
  exact ⟨fun _ hlo hhi => hcol.row hlo hhi, fun _ _ hb hn => hcol.other hb hn⟩

/-! ### VSPAN -/

theorem vSpanPhys_none {x y len : Int} {s : State} (h : vClip s.par.width s.par.height x y len = none) (mode : Mode) :
    vSpanPhys x y len mode s = s := by
  simp [vSpanPhys, h]

theorem vSpanPhys_some {x y len : Int} {s : State} {c a n : Nat}
    (h : vClip s.par.width s.par.height x y len = some (c, a, n)) (mode : Mode) :
    vSpanPhys x y len mode s =
      expand c a c (a + n - 1) { s with fb := vWrite s.par.width mode c a n s.fb } := by
  simp [vSpanPhys, h]

/-- The buffer operations are legal in every state but HardwareReleased (R271). -/
theorem legalBuffer_of_ne {l : LState} (h : l ≠ .hardwareReleased) : legalBuffer l = true := by
  cases l with
  | hardwareReleased => exact absurd rfl h
  | uninitialized | poweredOff | active => rfl

/-- A drawing procedure, run to its completion, leaves everything but the canvas and the port as it was. -/
theorem DrawsOnly.sameButCanvas {op : Op} {s t : State} (h : DrawsOnly (begin op s) t) :
    SameButCanvas s (freeResult (complete t)) := by
  obtain ⟨m, w, rfl⟩ := h
  rfl

theorem exec_vspan {s : State} (h : s.lstate ≠ .hardwareReleased) (x y len : Int) (mode : Mode) :
    exec (.vspan x y len mode) s = .next (freeResult (complete (vSpanPhys x y len mode (begin .vspan s)))) :=
  congrArg Host.Outcome.next (runOp_legal (op := .vspan) (legalBuffer_of_ne h) _)

/-- Settles O40: O39 for the clipped run, which lies on the panel. -/
theorem vspanWritesExactlyItsClippedPixels : Obligations.VspanWritesExactlyItsClippedPixels := by
  intro s x y len mode hl hm
  refine ⟨_, exec_vspan hl x y len mode, (vSpanPhys_drawsOnly x y len mode _).sameButCanvas, fun hclip => ?_,
    fun c a n hclip => ?_⟩
  · rw [vSpanPhys_none (s := begin .vspan s) hclip]
    exact ⟨rfl, rfl⟩
  · obtain ⟨_, hc, hrun⟩ := vClip_some hclip
    obtain ⟨hn, hfit, _⟩ := clipRun_some hrun
    obtain ⟨hrows, hother⟩ := verticalWriteChangesExactlyItsRows _ _ c a n mode s.fb hm hc hn hfit
    rw [vSpanPhys_some (s := begin .vspan s) hclip]
    refine ⟨fun i hi => hrows (a + i) (by omega) (by omega), fun k b hb hout => ?_, rfl⟩
    refine hother k b hb fun r hlo hhi => ?_
    have hr : a + (r - a) = r := by omega
    rw [← hr]
    exact hout (r - a) (by omega)

end Sys2Proof.Machine
end

section
/-! FLUSH with an empty dirty window (R202). -/

namespace Sys2Proof.Machine

/-- The bus operations are legal in PoweredOff and Active (R271). -/
theorem legalBus_of_poweredOff_or_active {l : LState} (h : l = .poweredOff ∨ l = .active) : legalBus l = true := by
  rcases h with rfl | rfl <;> rfl

theorem flushProc_empty {s : State} (h : isEmpty s = true) : flushProc s = .done s := if_pos h

/-- An empty window holds no index to read, so it never stands in a flush's way (R66). -/
theorem flushLeavesPanel_empty {s : State} (h : isEmpty s = true) : flushLeavesPanel s = false := by
  simp [flushLeavesPanel, h]

/-- A legal FLUSH whose window stays on the panel runs its procedure. -/
theorem exec_flush {s : State} (hl : s.lstate = .poweredOff ∨ s.lstate = .active)
    (hw : flushLeavesPanel s = false) : exec .flush s = .next (finish (flushProc (begin .flush s))) := by
  have hrun := runOp_legal (op := .flush) (legalBus_of_poweredOff_or_active hl) flushProc
  have hexec : exec .flush s = execFlush s := rfl
  rw [hexec, execFlush, if_neg (Bool.eq_false_iff.mp hw), hrun]

/-- Settles O42: the procedure ends where it began, so only completion and the free result are left to see. -/
theorem flushOfAnEmptyWindowSendsNothing : Obligations.FlushOfAnEmptyWindowSendsNothing := by
  intro s hl hempty
  have hproc : flushProc (begin .flush s) = .done (begin .flush s) := flushProc_empty (s := begin .flush s) hempty
  refine ⟨freeResult (complete (begin .flush s)), ?_, rfl⟩
  rw [exec_flush hl (flushLeavesPanel_empty hempty), hproc, finish_done]

end Sys2Proof.Machine
end

section
/-! Decoding what was encoded (R91 to R98, R110 to R114): host operation words field by field, and command bytes by the
uniqueness of the command that a byte is. -/

namespace Sys2Proof

/-! ### Host operation words -/

/-- A word with an assigned code and `rsv` zero is decoded by its format (R92, R93). -/
theorem decodeHost_hostWord (op : Op) (m : BitVec 2) (a b c : BitVec 16) :
    decodeHost (hostWord op.code m a b c) = decodeOperands (hostWord op.code m a b c) op := by
  simp [decodeHost, opOfCode_code]

theorem formatN_hostWord (op : BitVec 5) (i : Instr) : formatN (hostWord op 0 0 0 0) i = .ok i := by
  simp [formatN, requireZero]

theorem withMode_hostWord (op : BitVec 5) (m : Mode) (a b c : BitVec 16) (f : Mode → Except Reject Instr) :
    withMode (hostWord op m.bits a b c) f = f m := by
  simp [withMode]

theorem formatS_hostWord (op : BitVec 5) (m : Mode) (f : Int → Int → Int → Mode → Instr) {x y len : Int}
    (hx : fitsI16 x = true) (hy : fitsI16 y = true) (hlen : fitsI16 len = true) :
    formatS (hostWord op m.bits (i16 x) (i16 y) (i16 len)) f = .ok (f x y len m) := by
  simp [formatS, withMode, toInt_i16 hx, toInt_i16 hy, toInt_i16 hlen]

theorem formatV_hostWord (op : BitVec 5) (c : BitVec 16) (width : Nat) (i : Instr) (h : c >>> width = 0) :
    formatV (hostWord op 0 0 0 c) width i = .ok i := by
  simp [formatV, requireZero, h]

/-! The bytes of a 16-bit field that two bytes make up (R93). -/

theorem lowByte_append (hi lo : Byte) : (hi ++ lo).extractLsb' 0 8 = lo := by
  rw [BitVec.extractLsb'_append_eq_right]

theorem highByte_append (hi lo : Byte) : (hi ++ lo).extractLsb' 8 8 = hi := by
  rw [BitVec.extractLsb'_append_eq_left]

theorem lowByte_zeroExtend (v : Byte) : (v.zeroExtend 16).extractLsb' 0 8 = v := by
  ext i h
  have h16 : i < 16 := by omega
  simp [h16, h]

/-- The argument bytes of a format R word are its argument list, whichever of the four lengths it has (R93, R213). -/
theorem rawArgs_rawWord {cmd : Byte} {args : List Byte} (h : args.length ≤ 3) :
    rawArgs (rawWord cmd args) = (args, true) := by
  match args, h with
  | [], _ => simp [rawArgs, rawWord, argByte, highByte_append]
  | [a0], _ => simp [rawArgs, rawWord, argByte, highByte_append]
  | [a0, a1], _ => simp [rawArgs, rawWord, argByte, highByte_append, lowByte_append]
  | [a0, a1, a2], _ => simp [rawArgs, rawWord, argByte, highByte_append, lowByte_append]

theorem decodeHost_rawWord {cmd : Byte} {args : List Byte} (h : args.length ≤ 3) :
    decodeHost (rawWord cmd args) = .ok (.rawcmd cmd args) := by
  have hargs := rawArgs_rawWord (cmd := cmd) h
  have ha : aField (rawWord cmd args) = 0 := aField_hostWord _ _ _ _ _
  have hc : (cField (rawWord cmd args)).extractLsb' 0 8 = cmd := by rw [rawWord, cField_hostWord, lowByte_append]
  have hdec : decodeHost (rawWord cmd args) = decodeOperands (rawWord cmd args) .rawcmd := decodeHost_hostWord _ _ _ _ _
  rw [hdec, decodeOperands, ha, hc, hargs]
  rfl

/-! ### Command bytes -/

theorem Cmd.mem_all (c : Cmd) : c ∈ Cmd.all := by cases c <;> decide

/-- Two commands with a byte in common agree outside both their fields. -/
theorem Cmd.matches_agree {cs : CmdSet} {b : Byte} {c d : Cmd} (hc : Cmd.matches cs b c = true)
    (hd : Cmd.matches cs b d = true) :
    cs.byte c &&& ~~~c.fieldMask &&& ~~~d.fieldMask = cs.byte d &&& ~~~c.fieldMask &&& ~~~d.fieldMask := by
  rw [Cmd.matches, beq_iff_eq] at hc hd
  rw [← hc, ← hd]
  ext i hi
  simp only [BitVec.getElem_and]
  cases b[i] <;> cases (~~~c.fieldMask)[i] <;> cases (~~~d.fieldMask)[i] <;> rfl

/-- Where no byte is two commands, the command a byte matches is the command it is. -/
theorem cmdOfByte_of_matches {cs : CmdSet} (hu : cs.unambiguous = true) {b : Byte} {c : Cmd}
    (hc : Cmd.matches cs b c = true) : cmdOfByte cs b = some c := by
  obtain ⟨d, hd⟩ : ∃ d, cmdOfByte cs b = some d :=
    Option.isSome_iff_exists.1 (List.find?_isSome.2 ⟨c, c.mem_all, hc⟩)
  have hdm : Cmd.matches cs b d = true := List.find?_some hd
  have hsymm : Std.Symm fun c d : Cmd =>
      cs.byte c &&& ~~~c.fieldMask &&& ~~~d.fieldMask ≠ cs.byte d &&& ~~~c.fieldMask &&& ~~~d.fieldMask :=
    ⟨fun x y hxy => by
      rw [BitVec.and_assoc, BitVec.and_comm (~~~y.fieldMask), ← BitVec.and_assoc, BitVec.and_assoc (cs.byte x),
        BitVec.and_comm (~~~y.fieldMask), ← BitVec.and_assoc]
      exact hxy.symm⟩
  by_cases hcd : c = d
  · rw [hd, hcd]
  · exact absurd (Cmd.matches_agree hc hdm) ((of_decide_eq_true hu).forall c.mem_all d.mem_all hcd)

/-- R114 for every command: its byte has zeros in its field bits. -/
theorem CmdSet.byte_and_fieldMask {cs : CmdSet} (h : cs.basesClear = true) (c : Cmd) :
    cs.byte c &&& c.fieldMask = 0 := by
  simp only [CmdSet.basesClear, Bool.and_eq_true, beq_iff_eq] at h
  obtain ⟨⟨⟨hpage, hlow⟩, hhigh⟩, hline⟩ := h
  cases c with
  | setLowColumn => exact hlow
  | setHighColumn => exact hhigh
  | setStartLine => exact hline
  | pageAddr => exact hpage
  | _ => exact BitVec.and_zero

/-- The byte of a command matches it, whatever its field holds (R113). -/
theorem CmdSet.matches_withField {cs : CmdSet} (h : cs.basesClear = true) (c : Cmd) (f : Byte) :
    Cmd.matches cs (cs.withField c f) c = true := by
  have hclear := CmdSet.byte_and_fieldMask h c
  rw [Cmd.matches, beq_iff_eq, CmdSet.withField]
  ext i hi
  have hbit := congrArg (fun v : Byte => v[i]) hclear
  simp only [BitVec.getElem_and, BitVec.getElem_or, BitVec.getElem_not] at hbit ⊢
  cases hb : (cs.byte c)[i] <;> cases hm : c.fieldMask[i] <;> simp_all

theorem CmdSet.cmdOfByte_withField {cs : CmdSet} (hb : cs.basesClear = true) (hu : cs.unambiguous = true) (c : Cmd)
    (f : Byte) : cmdOfByte cs (cs.withField c f) = some c :=
  cmdOfByte_of_matches hu (CmdSet.matches_withField hb c f)

theorem CmdSet.withField_zero (cs : CmdSet) (c : Cmd) : cs.withField c 0 = cs.byte c := by
  simp [CmdSet.withField]

/-- The field bits of a command byte are the field (R113). -/
theorem CmdSet.withField_and_fieldMask {cs : CmdSet} (h : cs.basesClear = true) (c : Cmd) (f : Byte) :
    cs.withField c f &&& c.fieldMask = f &&& c.fieldMask := by
  have hclear := CmdSet.byte_and_fieldMask h c
  rw [CmdSet.withField]
  ext i hi
  have hbit := congrArg (fun v : Byte => v[i]) hclear
  simp only [BitVec.getElem_and, BitVec.getElem_or] at hbit ⊢
  cases hb : (cs.byte c)[i] <;> cases hm : c.fieldMask[i] <;> simp_all

/-- A command without argument byte, decoded (R110, R113). -/
theorem decodeBus_withField {cs : CmdSet} (hb : cs.basesClear = true) (hu : cs.unambiguous = true) {c : Cmd}
    (harg : c.takesArg = false) (f : Byte) (left : List Byte) :
    decodeBus cs (cs.withField c f :: left) = .ok (c.toInstr (cs.withField c f) 0, left) := by
  simp [decodeBus, CmdSet.cmdOfByte_withField hb hu, harg]

/-- A command with its argument byte, decoded (R110). -/
theorem decodeBus_byte_arg {cs : CmdSet} (hb : cs.basesClear = true) (hu : cs.unambiguous = true) {c : Cmd}
    (harg : c.takesArg = true) (arg : Byte) (left : List Byte) :
    decodeBus cs (cs.byte c :: arg :: left) = .ok (c.toInstr (cs.byte c) arg, left) := by
  have hcmd := CmdSet.cmdOfByte_withField hb hu c 0
  rw [CmdSet.withField_zero] at hcmd
  simp [decodeBus, hcmd, harg]

/-- A command with neither field nor argument byte, decoded (R110). -/
theorem decodeBus_byte {cs : CmdSet} (hb : cs.basesClear = true) (hu : cs.unambiguous = true) {c : Cmd}
    (harg : c.takesArg = false) (left : List Byte) :
    decodeBus cs (cs.byte c :: left) = .ok (c.toInstr (cs.byte c) 0, left) := by
  rw [← CmdSet.withField_zero]
  exact decodeBus_withField hb hu harg 0 left

/-- Bytes that agree on their low `k` bits agree on a field of that many bits. -/
theorem field_of_and_mask {k : Nat} {b mask : Byte} {f : BitVec k} (hk : k ≤ 8)
    (hmask : ∀ i < k, mask.getLsbD i = true) (h : b &&& mask = f.zeroExtend 8 &&& mask) : b.extractLsb' 0 k = f := by
  refine BitVec.eq_of_getLsbD_eq fun i hi => ?_
  have hbit := congrArg (fun v : Byte => v.getLsbD i) h
  have h8 : i < 8 := by omega
  simp only [BitVec.getLsbD_and, hmask i hi, Bool.and_true, BitVec.truncate_eq_setWidth, BitVec.getLsbD_setWidth, h8,
    decide_true, Bool.true_and] at hbit
  simp [hi, hbit]

theorem decode_bus {cs : CmdSet} {bytes : List Byte} {i : Instr} (h : decodeBus cs bytes = .ok (i, [])) :
    decode cs (.bus bytes) = some i := by
  simp [decode, h]

theorem decode_host {cs : CmdSet} {w : Word} {i : Instr} (h : decodeHost w = .ok i) :
    decode cs (.host w) = some i := by
  simp [decode, h]

/-- The encoding of a host operation decodes to it (R91 to R95). -/
theorem decodeHost_encode {cs : CmdSet} {i : Instr} {w : Word} (hi : i.wellFormed = true)
    (hw : encode cs i = .host w) : decodeHost w = .ok i := by
  cases i <;> simp only [encode, Code.host.injEq, reduceCtorEq] at hw <;> subst hw <;>
    simp only [Instr.wellFormed, Bool.and_eq_true, decide_eq_true_eq] at hi
  case presetup | init | shutdown | release | flush => exact (decodeHost_hostWord _ _ _ _ _).trans (formatN_hostWord _ _)
  case hspan | vspan | lhspan | lvspan =>
    exact (decodeHost_hostWord _ _ _ _ _).trans (formatS_hostWord _ _ _ hi.1.1 hi.1.2 hi.2)
  case setpixel =>
    rw [decodeHost_hostWord, decodeOperands, withMode_hostWord]
    simp [requireZero, toInt_i16 hi.1, toInt_i16 hi.2]
  case getpixel =>
    rw [decodeHost_hostWord, decodeOperands]
    simp [requireZero, toInt_i16 hi.1, toInt_i16 hi.2]
  case fill =>
    rw [decodeHost_hostWord, decodeOperands, withMode_hostWord]
    simp [requireZero]
  case rdbuf =>
    rw [decodeHost_hostWord, decodeOperands]
    simp [requireZero, Nat.mod_eq_of_lt hi]
  case setpower on | setinvert on =>
    rw [decodeHost_hostWord, decodeOperands, formatV_hostWord]
    · cases on <;> simp
    · cases on <;> rfl
  case setcontrast v =>
    rw [decodeHost_hostWord, decodeOperands, formatV_hostWord]
    · rw [cField_hostWord, lowByte_zeroExtend]
    · refine BitVec.eq_of_toNat_eq ?_
      simp [Nat.shiftRight_eq_div_pow]
      omega
  case setrotation r =>
    rw [decodeHost_hostWord, decodeOperands, formatV_hostWord]
    · cases r <;> simp <;> rfl
    · cases r <;> rfl
  case rawcmd => exact decodeHost_rawWord hi

/-- The encoding of a controller command decodes to it, field or argument byte (R110, R113). -/
theorem decodeBus_encode {cs : CmdSet} (hb : cs.basesClear = true) (hu : cs.unambiguous = true) {i : Instr}
    {bytes : List Byte} (hw : encode cs i = .bus bytes) : decodeBus cs bytes = .ok (i, []) := by
  cases i <;> simp only [encode, Code.bus.injEq, reduceCtorEq] at hw <;> subst hw
  case cmdSetLowColumn f =>
    rw [decodeBus_withField hb hu (c := .setLowColumn) rfl, Cmd.toInstr, field_of_and_mask (by omega) (by decide)
      (CmdSet.withField_and_fieldMask hb .setLowColumn _)]
  case cmdSetHighColumn f =>
    rw [decodeBus_withField hb hu (c := .setHighColumn) rfl, Cmd.toInstr, field_of_and_mask (by omega) (by decide)
      (CmdSet.withField_and_fieldMask hb .setHighColumn _)]
  case cmdPageAddr f =>
    rw [decodeBus_withField hb hu (c := .pageAddr) rfl, Cmd.toInstr, field_of_and_mask (by omega) (by decide)
      (CmdSet.withField_and_fieldMask hb .pageAddr _)]
  case cmdSetStartLine f =>
    rw [decodeBus_withField hb hu (c := .setStartLine) rfl, Cmd.toInstr, field_of_and_mask (by omega) (by decide)
      (CmdSet.withField_and_fieldMask hb .setStartLine _)]
  case cmdSetContrast arg => exact decodeBus_byte_arg hb hu (c := .setContrast) rfl arg []
  case cmdChargePump arg => exact decodeBus_byte_arg hb hu (c := .chargePump) rfl arg []
  case cmdSetMultiplex arg => exact decodeBus_byte_arg hb hu (c := .setMultiplex) rfl arg []
  case cmdSetDisplayOffset arg => exact decodeBus_byte_arg hb hu (c := .setDisplayOffset) rfl arg []
  case cmdSetDisplayClockDiv arg => exact decodeBus_byte_arg hb hu (c := .setDisplayClockDiv) rfl arg []
  case cmdSetPrecharge arg => exact decodeBus_byte_arg hb hu (c := .setPrecharge) rfl arg []
  case cmdSetComPins arg => exact decodeBus_byte_arg hb hu (c := .setComPins) rfl arg []
  case cmdSetVcomDetect arg => exact decodeBus_byte_arg hb hu (c := .setVcomDetect) rfl arg []
  case cmdSegRemapFixed => exact decodeBus_byte hb hu (c := .segRemapFixed) rfl []
  case cmdDisplayAllOnResume => exact decodeBus_byte hb hu (c := .displayAllOnResume) rfl []
  case cmdNormalDisplay => exact decodeBus_byte hb hu (c := .normalDisplay) rfl []
  case cmdInvertDisplay => exact decodeBus_byte hb hu (c := .invertDisplay) rfl []
  case cmdDisplayOff => exact decodeBus_byte hb hu (c := .displayOff) rfl []
  case cmdDisplayOn => exact decodeBus_byte hb hu (c := .displayOn) rfl []
  case cmdComScanFixed => exact decodeBus_byte hb hu (c := .comScanFixed) rfl []

/-- Settles O2: a host operation comes back by its format, a controller command by the one command its byte is. -/
theorem decodeOfEncodeIsTheInstruction : Obligations.DecodeOfEncodeIsTheInstruction := by
  intro cs i hb hu hi
  cases hcode : encode cs i with
  | host w => exact decode_host (decodeHost_encode hi hcode)
  | bus bytes => exact decode_bus (decodeBus_encode hb hu hcode)

end Sys2Proof
end

section
/-! A legal word is the encoding of its operation (R91 to R98): what each format accepts, read backwards. -/

namespace Sys2Proof

theorem fitsI16_toInt (v : BitVec 16) : fitsI16 v.toInt = true := by
  have hlo := BitVec.le_toInt v
  have hhi := BitVec.toInt_lt (x := v)
  simp only [fitsI16, Bool.and_eq_true, decide_eq_true_eq]
  omega

theorem i16_toInt (v : BitVec 16) : i16 v.toInt = v := BitVec.ofInt_toInt

/-- A legal mode field is the field of the mode it names (R95). -/
theorem bits_of_modeOfBits {b : BitVec 2} {m : Mode} (h : modeOfBits b = some m) : m.bits = b := by
  revert b m
  decide

/-! ### What each format accepts (R93) -/

theorem requireZero_ok {zero : Bool} {i j : Instr} (h : requireZero zero j = .ok i) : zero = true ∧ j = i := by
  cases zero with
  | true => exact ⟨rfl, by injection h⟩
  | false => cases h

theorem withMode_ok {w : Word} {f : Mode → Except Reject Instr} {i : Instr} (h : withMode w f = .ok i) :
    ∃ m, modeField w = m.bits ∧ f m = .ok i := by
  unfold withMode at h
  split at h
  · next m hm => exact ⟨m, (bits_of_modeOfBits hm).symm, h⟩
  · cases h

theorem formatN_ok {w : Word} {i j : Instr} (h : formatN w j = .ok i) :
    j = i ∧ modeField w = 0 ∧ aField w = 0 ∧ bField w = 0 ∧ cField w = 0 := by
  obtain ⟨hz, hj⟩ := requireZero_ok h
  simp only [Bool.and_eq_true, beq_iff_eq] at hz
  exact ⟨hj, hz.1.1.1, hz.1.1.2, hz.1.2, hz.2⟩

theorem formatV_ok {w : Word} {width : Nat} {i j : Instr} (h : formatV w width j = .ok i) :
    j = i ∧ modeField w = 0 ∧ aField w = 0 ∧ bField w = 0 ∧ (cField w).toNat < 2 ^ width := by
  obtain ⟨hz, hj⟩ := requireZero_ok h
  simp only [Bool.and_eq_true, beq_iff_eq] at hz
  obtain ⟨⟨⟨hm, ha⟩, hb⟩, hc⟩ := hz
  refine ⟨hj, hm, ha, hb, ?_⟩
  have hdiv := congrArg BitVec.toNat hc
  rw [BitVec.toNat_ushiftRight, Nat.shiftRight_eq_div_pow] at hdiv
  exact (Nat.div_eq_zero_iff_lt (Nat.two_pow_pos width)).1 hdiv

/-- `w` is a legal word of `op`, and `i` the well-formed instruction it is the encoding of. -/
structure EncodedBy (cs : CmdSet) (w : Word) (op : Op) (i : Instr) : Prop where
  wellFormed : i.wellFormed = true
  isOp : i.op = some op
  word : encode cs i = .host (hostWord op.code (modeField w) (aField w) (bField w) (cField w))

theorem encodedBy_formatN {cs : CmdSet} {w : Word} {op : Op} {i j : Instr} (h : formatN w j = .ok i)
    (hwf : j.wellFormed = true) (hop : j.op = some op) (hword : encode cs j = .host (hostWord op.code 0 0 0 0)) :
    EncodedBy cs w op i := by
  obtain ⟨rfl, hm, ha, hb, hc⟩ := formatN_ok h
  exact ⟨hwf, hop, by rw [hword, hm, ha, hb, hc]⟩

theorem encodedBy_formatV {cs : CmdSet} {w : Word} {width : Nat} {op : Op} {i j : Instr} (h : formatV w width j = .ok i)
    (hwf : j.wellFormed = true) (hop : j.op = some op)
    (hword : (cField w).toNat < 2 ^ width → encode cs j = .host (hostWord op.code 0 0 0 (cField w))) :
    EncodedBy cs w op i := by
  obtain ⟨rfl, hm, ha, hb, hc⟩ := formatV_ok h
  exact ⟨hwf, hop, by rw [hword hc, hm, ha, hb]⟩

theorem encodedBy_formatS {cs : CmdSet} {w : Word} {op : Op} {f : Int → Int → Int → Mode → Instr} {i : Instr}
    (h : formatS w f = .ok i)
    (hwf : ∀ x y len m, (f x y len m).wellFormed = (fitsI16 x && fitsI16 y && fitsI16 len))
    (hop : ∀ x y len m, (f x y len m).op = some op)
    (hword : ∀ x y len m, encode cs (f x y len m) = .host (hostWord op.code m.bits (i16 x) (i16 y) (i16 len))) :
    EncodedBy cs w op i := by
  obtain ⟨m, hm, hf⟩ := withMode_ok h
  obtain rfl : f (aField w).toInt (bField w).toInt (cField w).toInt m = i := by injection hf
  refine ⟨?_, hop _ _ _ _, ?_⟩
  · simp [hwf, fitsI16_toInt]
  · rw [hword, i16_toInt, i16_toInt, i16_toInt, hm]

/-- A 16-bit field is its two bytes (R93). -/
theorem append_bytes (c : BitVec 16) : c.extractLsb' 8 8 ++ c.extractLsb' 0 8 = c := by
  refine BitVec.eq_of_getLsbD_eq fun i hi => ?_
  rw [BitVec.getLsbD_append, BitVec.getLsbD_extractLsb', BitVec.getLsbD_extractLsb']
  split
  · next h => simp [h]
  · simp [show i - 8 < 8 by omega, show 8 + (i - 8) = i by omega]

theorem twoBits_cases : ∀ m : BitVec 2, m = 0 ∨ m = 1 ∨ m = 2 ∨ m = 3 := by decide

/-- The fields of a legal format R word, by its argument list (R93). -/
theorem rawArgs_legal {w : Word} (h : (rawArgs w).2 = true) :
    (rawArgs w).1.length ≤ 3 ∧ BitVec.ofNat 2 (rawArgs w).1.length = modeField w ∧
    argByte (rawArgs w).1 2 ++ argByte (rawArgs w).1 1 = bField w ∧
    argByte (rawArgs w).1 0 ++ (cField w).extractLsb' 0 8 = cField w := by
  have hb := append_bytes (bField w)
  have hc := append_bytes (cField w)
  rcases twoBits_cases (modeField w) with hm | hm | hm | hm <;>
    simp [rawArgs, hm] at h <;> simp_all [rawArgs, argByte]

theorem encodedBy_rawcmd {cs : CmdSet} {w : Word} {i : Instr} (h : decodeOperands w .rawcmd = .ok i) :
    EncodedBy cs w .rawcmd i := by
  obtain ⟨hz, rfl⟩ := requireZero_ok h
  rw [Bool.and_eq_true, beq_iff_eq] at hz
  obtain ⟨hlen, hm, hb, hc⟩ := rawArgs_legal hz.2
  refine ⟨decide_eq_true hlen, rfl, ?_⟩
  rw [encode, rawWord, hm, hb, hc, hz.1]

theorem bit_of_lt_two {c : BitVec 16} (h : c.toNat < 2 ^ 1) : (if c.getLsbD 0 then 1 else 0) = c := by
  have hc : c = 0 ∨ c = 1 := by
    rcases Nat.le_one_iff_eq_zero_or_eq_one.1 (Nat.le_of_lt_succ h) with h | h
    · exact .inl (BitVec.eq_of_toNat_eq h)
    · exact .inr (BitVec.eq_of_toNat_eq h)
  rcases hc with rfl | rfl <;> rfl

theorem lowBits_of_lt {c : BitVec 16} {k : Nat} (h : c.toNat < 2 ^ k) :
    (c.extractLsb' 0 k).zeroExtend 16 = c := by
  refine BitVec.eq_of_toNat_eq ?_
  simpa [Nat.mod_eq_of_lt h] using c.isLt

/-- Whatever a format accepts is the encoding of what it makes of it (R93, R94). -/
theorem encodedBy_of_decodeOperands {cs : CmdSet} {w : Word} {op : Op} {i : Instr} (h : decodeOperands w op = .ok i) :
    EncodedBy cs w op i := by
  cases op with
  | presetup | init | shutdown | release | flush => exact encodedBy_formatN h rfl rfl rfl
  | hspan | vspan | lhspan | lvspan => exact encodedBy_formatS h (fun _ _ _ _ => rfl) (fun _ _ _ _ => rfl) fun _ _ _ _ => rfl
  | setpixel =>
    obtain ⟨m, hm, hz⟩ := withMode_ok h
    obtain ⟨hc, rfl⟩ := requireZero_ok hz
    refine ⟨by simp [Instr.wellFormed, fitsI16_toInt], rfl, ?_⟩
    rw [encode, i16_toInt, i16_toInt, hm, eq_of_beq hc]
  | getpixel =>
    rw [decodeOperands] at h
    split at h
    · next hm =>
      obtain ⟨hc, rfl⟩ := requireZero_ok h
      refine ⟨by simp [Instr.wellFormed, fitsI16_toInt], rfl, ?_⟩
      rw [encode, i16_toInt, i16_toInt, eq_of_beq hm, eq_of_beq hc]
    · cases h
  | fill =>
    obtain ⟨m, hm, hz⟩ := withMode_ok h
    obtain ⟨hc, rfl⟩ := requireZero_ok hz
    simp only [Bool.and_eq_true, beq_iff_eq] at hc
    exact ⟨rfl, rfl, by rw [encode, hm, hc.1.1, hc.1.2, hc.2]⟩
  | rdbuf =>
    obtain ⟨hz, rfl⟩ := requireZero_ok h
    simp only [Bool.and_eq_true, beq_iff_eq] at hz
    refine ⟨decide_eq_true (cField w).isLt, rfl, ?_⟩
    rw [encode, hz.1.1, hz.1.2, hz.2, BitVec.ofNat_toNat, BitVec.setWidth_eq]
  | setpower | setinvert =>
    refine encodedBy_formatV h rfl rfl fun hc => ?_
    rw [encode, bit_of_lt_two hc]
  | setcontrast =>
    refine encodedBy_formatV h rfl rfl fun hc => ?_
    rw [encode, lowBits_of_lt hc]
  | setrotation =>
    refine encodedBy_formatV h rfl rfl fun hc => ?_
    rw [encode, bits_rotOfBits, lowBits_of_lt hc]
  | rawcmd => exact encodedBy_rawcmd h

/-- A legal word has `rsv` zero, an assigned code, and operands its format accepts (R98). -/
theorem decodeHost_ok {w : Word} {i : Instr} (h : decodeHost w = .ok i) :
    ∃ op : Op, opField w = op.code ∧ rsvField w = 0 ∧ decodeOperands w op = .ok i := by
  unfold decodeHost at h
  split at h
  · cases h
  · next op hop =>
    split at h
    · next hr => exact ⟨op, (BitVec.eq_of_toNat_eq (code_of_opOfCode hop)).symm, eq_of_beq hr, h⟩
    · cases h

/-- Settles O3: each format read backwards, and a word is put together from its fields. -/
theorem decodedWordIsTheEncodingOfItsOperation : Obligations.DecodedWordIsTheEncodingOfItsOperation := by
  intro cs w i h
  obtain ⟨op, hop, hr, hdec⟩ := decodeHost_ok h
  obtain ⟨hwf, hisOp, hword⟩ := encodedBy_of_decodeOperands (cs := cs) hdec
  refine ⟨hwf, by simp [hisOp], ?_⟩
  rw [hword, ← hop, hostWord_fields hr]

end Sys2Proof
end

section
/-! The words of the host operations as numbers (R91 to R94), and the illegal words (R98). -/

namespace Sys2Proof.Machine

/-- Settles O1: the two decoders, run on each word. -/
theorem specWordsDecodeToTheirOperations : Obligations.SpecWordsDecodeToTheirOperations := by
  unfold Obligations.SpecWordsDecodeToTheirOperations
  decide

/-! ### Values -/

theorem toNat_append_eq {n m : Nat} (x : BitVec n) (y : BitVec m) : (x ++ y).toNat = x.toNat * 2 ^ m + y.toNat := by
  rw [BitVec.toNat_append, ← Nat.shiftLeft_add_eq_or_of_lt y.isLt, Nat.shiftLeft_eq]

/-- The value formula of R91. -/
theorem hostWord_eq_wordValue (op : BitVec 5) (m : BitVec 2) (a b c : BitVec 16) :
    hostWord op m a b c = wordValue op.toNat m.toNat a.toNat b.toNat c.toNat := by
  refine BitVec.eq_of_toNat_eq ?_
  have hrsv : (0 : BitVec 9).toNat = 0 := rfl
  simp only [hostWord, wordValue, toNat_append_eq, BitVec.toNat_ofNat, hrsv]
  omega

@[simp] theorem toNat_modeBits (m : Mode) : m.bits.toNat = modeNumber m := by cases m <;> rfl

@[simp] theorem toNat_i16 (v : Int) : (i16 v).toNat = signedField v := BitVec.toNat_ofInt v

/-- Settles O4: each word is its fields by R91's formula, and each field is the number of its operand. -/
theorem operationWordsHaveTheSpecValues : Obligations.OperationWordsHaveTheSpecValues := by
  intro cs x y len m n on v c a0 a1 a2 r hn
  have hindex : (BitVec.ofNat 16 n).toNat = n := Nat.mod_eq_of_lt hn
  have hbit : (if on = true then 1 else 0 : BitVec 16).toNat = on.toNat := by cases on <;> rfl
  have hbyte : (v.zeroExtend 16).toNat = v.toNat := by simp; omega
  have hrot : (r.bits.zeroExtend 16).toNat = rotNumber r := by cases r <;> rfl
  simp only [encode, rawWord, hostWord_eq_wordValue, toNat_modeBits, toNat_i16, toNat_append_eq, argByte, hindex, hbit,
    hbyte, hrot]
  refine ⟨rfl, rfl, rfl, rfl, rfl, rfl, rfl, rfl, rfl, rfl, rfl, rfl, rfl, rfl, rfl, rfl, rfl, ?_, ?_, ?_, rfl⟩ <;>
    simp [Op.code]

/-! ### Illegal words (R98) -/

theorem toNat_opField (w : Word) : (opField w).toNat = w.toNat / 2 ^ 59 := by
  rw [opField, BitVec.extractLsb'_toNat, Nat.shiftRight_eq_div_pow]
  omega

theorem toNat_modeField (w : Word) : (modeField w).toNat = w.toNat / 2 ^ 57 % 4 := by
  rw [modeField, BitVec.extractLsb'_toNat, Nat.shiftRight_eq_div_pow]

theorem toNat_rsvField (w : Word) : (rsvField w).toNat = w.toNat / 2 ^ 48 % 512 := by
  rw [rsvField, BitVec.extractLsb'_toNat, Nat.shiftRight_eq_div_pow]

theorem toNat_aField (w : Word) : (aField w).toNat = w.toNat / 2 ^ 32 % 65536 := by
  rw [aField, BitVec.extractLsb'_toNat, Nat.shiftRight_eq_div_pow]

theorem toNat_bField (w : Word) : (bField w).toNat = w.toNat / 2 ^ 16 % 65536 := by
  rw [bField, BitVec.extractLsb'_toNat, Nat.shiftRight_eq_div_pow]

theorem toNat_cField (w : Word) : (cField w).toNat = w.toNat % 65536 := by
  rw [cField, BitVec.extractLsb'_toNat, Nat.shiftRight_eq_div_pow]
  simp

/-- The decoder answers that a word, or a part of it, is illegal. -/
def Rejected (r : Except Reject Instr) : Prop := ∃ e, r = .error e

@[simp] theorem rejected_ok (i : Instr) : ¬ Rejected (.ok i) := by rintro ⟨e, h⟩; cases h

@[simp] theorem rejected_error (e : Reject) : Rejected (.error e) := ⟨e, rfl⟩

theorem rejected_requireZero (zero : Bool) (i : Instr) : Rejected (requireZero zero i) ↔ zero = false := by
  cases zero <;> simp [requireZero]

theorem eq_zero_iff_toNat {n : Nat} (v : BitVec n) : v = 0 ↔ v.toNat = 0 := by
  rw [← BitVec.toNat_inj]
  simp

theorem modeOfBits_eq_none (b : BitVec 2) : modeOfBits b = none ↔ b.toNat = 3 := by
  revert b
  decide

/-- A mode field is rejected when it is 3, and what follows it whatever the mode is (R95). -/
theorem rejected_withMode {w : Word} {f : Mode → Except Reject Instr} {P : Prop} (hf : ∀ m, Rejected (f m) ↔ P) :
    Rejected (withMode w f) ↔ (modeField w).toNat = 3 ∨ P := by
  rw [← modeOfBits_eq_none]
  unfold withMode
  split
  · next m hm => simp [hf, hm]
  · next hm => simp [hm]

theorem rejected_formatN (w : Word) (i : Instr) : Rejected (formatN w i) ↔
    ¬ ((modeField w).toNat = 0 ∧ (aField w).toNat = 0 ∧ (bField w).toNat = 0 ∧ (cField w).toNat = 0) := by
  simp only [formatN, rejected_requireZero, ← eq_zero_iff_toNat, Bool.and_eq_false_iff, beq_eq_false_iff_ne]
  tauto

theorem rejected_formatS (w : Word) (f : Int → Int → Int → Mode → Instr) :
    Rejected (formatS w f) ↔ (modeField w).toNat = 3 := by
  rw [formatS, rejected_withMode (P := False) fun m => by simp, or_false]

theorem rejected_formatV (w : Word) (width : Nat) (i : Instr) : Rejected (formatV w width i) ↔
    ¬ ((modeField w).toNat = 0 ∧ (aField w).toNat = 0 ∧ (bField w).toNat = 0) ∨ 2 ^ width ≤ (cField w).toNat := by
  have hc : (cField w) >>> width = 0 ↔ (cField w).toNat < 2 ^ width := by
    rw [eq_zero_iff_toNat, BitVec.toNat_ushiftRight, Nat.shiftRight_eq_div_pow,
      Nat.div_eq_zero_iff_lt (Nat.two_pow_pos width)]
  simp only [formatV, rejected_requireZero, ← Nat.not_lt, ← hc, ← eq_zero_iff_toNat, Bool.and_eq_false_iff,
    beq_eq_false_iff_ne]
  tauto

/-- What format R asks of the fields past the argument list (R93). -/
theorem rawArgs_zero (w : Word) : (rawArgs w).2 = false ↔
    ((modeField w).toNat ≤ 2 ∧ 256 ≤ (bField w).toNat) ∨ ((modeField w).toNat ≤ 1 ∧ (bField w).toNat ≠ 0) ∨
    ((modeField w).toNat = 0 ∧ 256 ≤ (cField w).toNat) := by
  have hc : (cField w).extractLsb' 8 8 = 0 ↔ (cField w).toNat < 256 := by
    rw [eq_zero_iff_toNat, BitVec.extractLsb'_toNat, Nat.shiftRight_eq_div_pow]
    have := (cField w).isLt
    omega
  have hb : (bField w).extractLsb' 8 8 = 0 ↔ (bField w).toNat < 256 := by
    rw [eq_zero_iff_toNat, BitVec.extractLsb'_toNat, Nat.shiftRight_eq_div_pow]
    have := (bField w).isLt
    omega
  have hb' : (bField w).extractLsb' 0 8 = 0 ↔ (bField w).toNat % 256 = 0 := by
    rw [eq_zero_iff_toNat, BitVec.extractLsb'_toNat, Nat.shiftRight_zero]
  have hmode : (modeField w).toNat = 0 ∨ (modeField w).toNat = 1 ∨ (modeField w).toNat = 2 ∨ (modeField w).toNat = 3 := by
    have := (modeField w).isLt
    omega
  unfold rawArgs
  rcases hmode with hm | hm | hm | hm <;>
    simp only [hm, Bool.and_eq_false_iff, beq_eq_false_iff_ne, ne_eq, hc, hb, hb',
      reduceCtorEq, true_and, false_and, or_false, false_iff] <;> omega

/-- Which operand fields an operation's format rejects (R93, R98). -/
def OperandsIllegal (op : Op) (mode a b c : Nat) : Prop :=
  match op with
  | .presetup | .init | .shutdown | .release | .flush => ¬ (mode = 0 ∧ a = 0 ∧ b = 0 ∧ c = 0)
  | .setpixel => mode = 3 ∨ c ≠ 0
  | .getpixel => mode ≠ 0 ∨ c ≠ 0
  | .fill => mode = 3 ∨ ¬ (a = 0 ∧ b = 0 ∧ c = 0)
  | .rdbuf => ¬ (mode = 0 ∧ a = 0 ∧ b = 0)
  | .hspan | .vspan | .lhspan | .lvspan => mode = 3
  | .setpower | .setinvert => ¬ (mode = 0 ∧ a = 0 ∧ b = 0) ∨ 2 ≤ c
  | .setcontrast => ¬ (mode = 0 ∧ a = 0 ∧ b = 0) ∨ 256 ≤ c
  | .setrotation => ¬ (mode = 0 ∧ a = 0 ∧ b = 0) ∨ 4 ≤ c
  | .rawcmd => a ≠ 0 ∨ (mode ≤ 2 ∧ 256 ≤ b) ∨ (mode ≤ 1 ∧ b ≠ 0) ∨ (mode = 0 ∧ 256 ≤ c)

theorem rejected_decodeOperands (w : Word) (op : Op) : Rejected (decodeOperands w op) ↔
    OperandsIllegal op (modeField w).toNat (aField w).toNat (bField w).toNat (cField w).toNat := by
  cases op with
  | presetup | init | shutdown | release | flush => exact rejected_formatN w _
  | hspan | vspan | lhspan | lvspan => exact rejected_formatS w _
  | setpower | setinvert | setcontrast | setrotation => exact rejected_formatV w _ _
  | setpixel =>
    refine rejected_withMode fun m => ?_
    rw [rejected_requireZero, beq_eq_false_iff_ne, ne_eq, eq_zero_iff_toNat]
  | getpixel =>
    rw [decodeOperands, OperandsIllegal]
    split
    · next hm =>
      rw [beq_iff_eq, eq_zero_iff_toNat] at hm
      rw [rejected_requireZero, beq_eq_false_iff_ne, ne_eq, eq_zero_iff_toNat]
      simp [hm]
    · next hm =>
      rw [beq_iff_eq, eq_zero_iff_toNat] at hm
      simp [hm]
  | fill =>
    refine rejected_withMode fun m => ?_
    simp only [rejected_requireZero, ← eq_zero_iff_toNat, Bool.and_eq_false_iff, beq_eq_false_iff_ne]
    tauto
  | rdbuf =>
    simp only [decodeOperands, OperandsIllegal, rejected_requireZero, ← eq_zero_iff_toNat, Bool.and_eq_false_iff,
      beq_eq_false_iff_ne]
    tauto
  | rawcmd =>
    rw [decodeOperands, OperandsIllegal, rejected_requireZero, Bool.and_eq_false_iff, beq_eq_false_iff_ne, rawArgs_zero,
      ne_eq, eq_zero_iff_toNat]

theorem opOfCode_eq_none (n : Nat) : opOfCode n = none ↔ n = 0 ∨ (5 ≤ n ∧ n ≤ 7) ∨ 0x16 ≤ n := by
  by_cases hn : n < 0x16
  · interval_cases n <;> simp [opOfCode]
  · have hnone : opOfCode n = none := by
      cases hop : opOfCode n with
      | none => rfl
      | some op =>
        have hcode := code_of_opOfCode hop
        have : op.code.toNat < 0x16 := by cases op <;> decide
        omega
    simp only [hnone, true_iff]
    omega

/-- An unassigned code is illegal whatever else the word holds (R98). -/
theorem rejected_of_unassigned {w : Word} (h : opOfCode (opField w).toNat = none) : Rejected (decodeHost w) := by
  simp [decodeHost, h]

/-- A word of an assigned code is illegal by its reserved field or its format (R98). -/
theorem rejected_of_assigned {w : Word} {op : Op} (h : opOfCode (opField w).toNat = some op) : Rejected (decodeHost w) ↔
    (rsvField w).toNat ≠ 0 ∨
      OperandsIllegal op (modeField w).toNat (aField w).toNat (bField w).toNat (cField w).toNat := by
  rw [← rejected_decodeOperands, ne_eq, ← eq_zero_iff_toNat]
  by_cases hr : rsvField w = 0#9
  · simp [decodeHost, h, hr]
  · simp [decodeHost, h, hr]

/-- Settles O5: an unassigned code is the first condition; for each assigned one the list comes down to the reserved
field and the operation's format. -/
theorem wordsAreIllegalExactlyAsListed : Obligations.WordsAreIllegalExactlyAsListed := by
  intro w
  simp only [← toNat_opField, ← toNat_modeField, ← toNat_rsvField, ← toNat_aField, ← toNat_bField, ← toNat_cField]
  change Rejected (decodeHost w) ↔ _
  cases hop : opOfCode (opField w).toNat with
  | none => exact iff_of_true (rejected_of_unassigned hop) (.inl ((opOfCode_eq_none _).1 hop))
  | some op =>
    rw [rejected_of_assigned hop, ← code_of_opOfCode hop]
    generalize (rsvField w).toNat = rsv
    generalize (modeField w).toNat = mode
    generalize (aField w).toNat = a
    generalize (bField w).toNat = b
    generalize (cField w).toNat = c
    cases op <;> simp [OperandsIllegal, Op.code]

end Sys2Proof.Machine
end

section
/-! What a procedure sends: the events it appends where every transaction is answered `ok`, and where it stops at the
first that is not (R200, R264). Said once of each procedure, whatever the bus carried before it. -/

namespace Sys2Proof.Machine

/-! ### The bus side of a state -/

/-- `s` once the bus has carried the events `evs`, with the sequencer at `q` (R57, R200). -/
def sent (s : State) (evs : List Event) (q : Seq) : State :=
  { s with
    trace := s.trace ++ evs, answers := s.answers.drop (txnsOf evs).length, wire := s.wire ++ txnsOf evs, seq := q }

theorem sent_nil (s : State) (q : Seq) : sent s [] q = { s with seq := q } := by simp [sent, txnsOf]

theorem txnsOf_append (evs evs' : List Event) : txnsOf (evs ++ evs') = txnsOf evs ++ txnsOf evs' := by
  induction evs with
  | nil => rfl
  | cons e evs ih => cases e <;> simp [txnsOf, ih]

theorem sent_sent (s : State) (evs evs' : List Event) (q q' : Seq) :
    sent (sent s evs q) evs' q' = sent s (evs ++ evs') q' := by
  simp [sent, txnsOf_append]

/-- No transaction among the events was answered `fail`. -/
def AllOk (evs : List Event) : Prop := ∀ x, Event.bus x .fail ∉ evs

theorem AllOk.append {evs evs' : List Event} (h : AllOk evs) (h' : AllOk evs') : AllOk (evs ++ evs') := fun x hx =>
  (List.mem_append.1 hx).elim (h x) (h' x)

theorem AllOk.of_append_left {evs evs' : List Event} (h : AllOk (evs ++ evs')) : AllOk evs := fun x hx =>
  h x (List.mem_append_left _ hx)

theorem AllOk.tail {e : Event} {evs : List Event} (h : AllOk (e :: evs)) : AllOk evs := fun x hx =>
  h x (List.mem_cons_of_mem _ hx)

theorem AllOk.head_ok {x : Txn} {r : Answer} {evs : List Event} (h : AllOk (.bus x r :: evs)) : r = .ok := by
  cases r with
  | ok => rfl
  | fail => exact absurd List.mem_cons_self (h x)

/-- The state after events all answered `ok`, in one piece. -/
theorem after_eq_sent {evs : List Event} (h : AllOk evs) (s : State) : after s evs = sent s evs s.seq := by
  induction evs generalizing s with
  | nil => simp [after, sent_nil]
  | cons e evs ih =>
    cases e with
    | delay ms => simp [after, ih h.tail, sent, txnsOf]
    | bus x r =>
      obtain rfl := h.head_ok
      simp [after, ih h.tail, sent, txnsOf, recordOk]

/-! TRANSPORT answers from the trace and the scripted answers alone (R14). -/

theorem answerOf_congr {s t : State} (htrace : t.trace = s.trace) (hanswers : t.answers = s.answers) (x : Txn) :
    answerOf t x = answerOf s x := by
  simp [answerOf, htrace, hanswers]

theorem answersOk_congr {s t : State} (htrace : t.trace = s.trace) (hanswers : t.answers = s.answers)
    (evs : List Event) : answersOk t evs = answersOk s evs := by
  induction evs generalizing s t with
  | nil => rfl
  | cons e evs ih =>
    cases e with
    | delay ms => exact ih (by simp [htrace]) hanswers
    | bus x r =>
      rw [answersOk, answersOk, answerOf_congr htrace hanswers, ih (s := recordOk x s)]
      · simp [htrace]
      · simp [hanswers]

theorem answersOk_append (s : State) (evs evs' : List Event) :
    answersOk s (evs ++ evs') = (answersOk s evs && answersOk (after s evs) evs') := by
  induction evs generalizing s with
  | nil => simp [answersOk, after]
  | cons e evs ih =>
    cases e with
    | delay ms => exact ih _
    | bus x r => simp [answersOk, after, ih, Bool.and_assoc]

/-! ### Registers -/

/-- `d` is `s` but for registers and memory that operations write: nothing of the parameters, the bus side, the port,
the inputs and the controller. -/
def RegsOnly (s d : State) : Prop :=
  ∃ win rot contrast compins muxratio inv lstate fb, d = { s with
    win := win, rot := rot, contrast := contrast, compins := compins, muxratio := muxratio, inv := inv
    lstate := lstate, fb := fb }

theorem RegsOnly.refl (s : State) : RegsOnly s s :=
  ⟨s.win, s.rot, s.contrast, s.compins, s.muxratio, s.inv, s.lstate, s.fb, rfl⟩

theorem RegsOnly.trans {s d e : State} (h : RegsOnly s d) (h' : RegsOnly d e) : RegsOnly s e := by
  obtain ⟨_, _, _, _, _, _, _, _, rfl⟩ := h
  obtain ⟨w, r, c, p, m, i, l, f, rfl⟩ := h'
  exact ⟨w, r, c, p, m, i, l, f, rfl⟩

theorem RegsOnly.trace {s d : State} (h : RegsOnly s d) : d.trace = s.trace := by
  obtain ⟨_, _, _, _, _, _, _, _, rfl⟩ := h; rfl

theorem RegsOnly.answers {s d : State} (h : RegsOnly s d) : d.answers = s.answers := by
  obtain ⟨_, _, _, _, _, _, _, _, rfl⟩ := h; rfl

theorem DrawsOnly.regsOnly {s d : State} (h : DrawsOnly s d) : RegsOnly s d := by
  obtain ⟨m, w, rfl⟩ := h
  exact ⟨w, s.rot, s.contrast, s.compins, s.muxratio, s.inv, s.lstate, m, rfl⟩

theorem sent_answersOk_congr {s d : State} (h : RegsOnly s d) (evs : List Event) (q q' : Seq) (evs' : List Event) :
    answersOk (sent d evs q) evs' = answersOk (sent s evs q') evs' :=
  answersOk_congr (by simp [sent, h.trace]) (by simp [sent, h.answers]) evs'

theorem sent_answerOf_congr {s d : State} (h : RegsOnly s d) (evs : List Event) (q q' : Seq) (x : Txn) :
    answerOf (sent d evs q) x = answerOf (sent s evs q') x :=
  answerOf_congr (by simp [sent, h.trace]) (by simp [sent, h.answers]) x

/-! ### Procedures that send -/

/-- The events of a script. -/
abbrev eventsOf (scr : List (State × Event)) : List Event := scr.map Prod.snd

/-- Every transaction of the script was answered `ok`, and the procedure is done with the registers `d`. -/
def SentAll (s : State) (scr : List (State × Event)) (d : State) (evs : List Event) (r : Flow) : Prop :=
  answersOk (sent s evs s.seq) (eventsOf scr) = true ∧ ∃ q, r = .done (sent d (evs ++ eventsOf scr) q)

/-- The script went up to a transaction `x` that failed, the registers then being `u` (R264). -/
def StoppedAt (s : State) (scr : List (State × Event)) (evs : List Event) (r : Flow) : Prop :=
  ∃ pre u x post, scr = pre ++ (u, Event.bus x .ok) :: post ∧ answersOk (sent s evs s.seq) (eventsOf pre) = true ∧
    answerOf (sent s (evs ++ eventsOf pre) s.seq) x = .fail ∧
    r = .raised (raiseTransportError (recordFail x (sent u (evs ++ eventsOf pre) s.seq)))

/-- From the registers of `s`, whatever the bus carried before, `f` asks for the transactions of the script one after the
other, each with the registers it stands with, and leaves the registers `d`; the first that fails is its end. -/
structure Sends (s : State) (scr : List (State × Event)) (d : State) (f : State → Flow) : Prop where
  allOk : AllOk (eventsOf scr)
  regs : RegsOnly s d
  during : ∀ c ∈ scr, RegsOnly s c.1
  run : ∀ evs q, SentAll s scr d evs (f (sent s evs q)) ∨ StoppedAt s scr evs (f (sent s evs q))

/-- A procedure that sends nothing. -/
theorem Sends.silent {s d : State} {f : State → Flow} (h : RegsOnly s d)
    (hf : ∀ evs q, ∃ q', f (sent s evs q) = .done (sent d evs q')) : Sends s [] d f where
  allOk := fun _ hx => by simp at hx
  regs := h
  during := fun _ hc => by simp at hc
  run := fun evs q => .inl ⟨rfl, by simpa using hf evs q⟩

/-- One transaction (R200). -/
theorem Sends.busSend {s : State} {x : State → Txn} (hx : ∀ evs q, x (sent s evs q) = x s) :
    Sends s [(s, .bus (x s) .ok)] s fun t => busSend (x t) t where
  allOk := fun _ h => by simp at h
  regs := .refl s
  during := fun c hc => by
    obtain rfl := List.mem_singleton.1 hc
    exact .refl s
  run := fun evs q => by
    rw [hx]
    have hanswer := sent_answerOf_congr (.refl s) evs q s.seq (x s)
    rcases busSend_cases (x s) (sent s evs q) with ⟨hok, e⟩ | ⟨hfail, e⟩
    · rw [hanswer] at hok
      refine .inl ⟨by simp [answersOk, hok], q, ?_⟩
      rw [e]
      simp [recordOk, sent, txnsOf_append, txnsOf]
    · rw [hanswer] at hfail
      exact .inr ⟨[], s, x s, [], rfl, rfl, by simpa using hfail, by rw [e]; simp; rfl⟩

/-- One procedure after another. -/
theorem Sends.bind {s d d' : State} {scr scr' : List (State × Event)} {f g : State → Flow} (hf : Sends s scr d f)
    (hg : Sends d scr' d' g) : Sends s (scr ++ scr') d' fun t => (f t).bind g where
  allOk := by
    rw [eventsOf, List.map_append]
    exact hf.allOk.append hg.allOk
  regs := hf.regs.trans hg.regs
  during := fun c hc => (List.mem_append.1 hc).elim (hf.during c) fun h => hf.regs.trans (hg.during c h)
  run := fun evs q => by
    have happend : ∀ pre, evs ++ eventsOf (scr ++ pre) = evs ++ eventsOf scr ++ eventsOf pre := fun pre => by simp
    have hafter : answersOk (sent s evs s.seq) (eventsOf scr) = true → ∀ pre,
        answersOk (sent d (evs ++ eventsOf scr) d.seq) (eventsOf pre) = true →
        answersOk (sent s evs s.seq) (eventsOf (scr ++ pre)) = true := fun hok pre hok' => by
      rw [sent_answersOk_congr hf.regs _ _ s.seq] at hok'
      rw [eventsOf, List.map_append, answersOk_append, hok, after_eq_sent hf.allOk, sent_sent]
      exact hok'
    rcases hf.run evs q with ⟨hok, q', e⟩ | ⟨pre, u, x, post, hscr, hok, hfail, e⟩
    · rw [e, Flow.bind_done]
      rcases hg.run (evs ++ eventsOf scr) q' with ⟨hok', q'', e'⟩ | ⟨pre, u, x, post, hscr, hok', hfail, e'⟩
      · exact .inl ⟨hafter hok _ hok', q'', by rw [e', happend]⟩
      · refine .inr ⟨scr ++ pre, u, x, post, by rw [hscr, List.append_assoc], hafter hok _ hok', ?_, ?_⟩
        · rw [happend, ← sent_answerOf_congr hf.regs _ d.seq]
          exact hfail
        · rw [e', happend]
          rfl
    · refine .inr ⟨pre, u, x, post ++ scr', by rw [hscr]; simp, hok, hfail, ?_⟩
      rw [e, Flow.bind_raised]

/-- Moving the sequencer first changes nothing of what is sent. -/
theorem Sends.afterSeq {s d : State} {scr : List (State × Event)} {f : State → Flow} (h : Sends s scr d f)
    {g : State → State} (hg : ∀ evs q, ∃ q', g (sent s evs q) = sent s evs q') : Sends s scr d fun t => f (g t) where
  allOk := h.allOk
  regs := h.regs
  during := h.during
  run := fun evs q => by
    obtain ⟨q', e⟩ := hg evs q
    rw [e]
    exact h.run evs q'

theorem Sends.congr {s d : State} {scr : List (State × Event)} {f g : State → Flow} (h : Sends s scr d f)
    (hg : ∀ evs q, g (sent s evs q) = f (sent s evs q)) : Sends s scr d g where
  allOk := h.allOk
  regs := h.regs
  during := h.during
  run := fun evs q => by
    rw [hg]
    exact h.run evs q

/-- A register write before the first transaction. -/
theorem Sends.afterWrite {s d e : State} {scr : List (State × Event)} {f : State → Flow} (h : Sends d scr e f)
    {g : State → State} (hd : RegsOnly s d) (hg : ∀ evs q, g (sent s evs q) = sent d evs q) :
    Sends s scr e fun t => f (g t) :=
  (Sends.silent (f := fun t => .done (g t)) hd fun evs q => ⟨q, by rw [hg]⟩).bind h

/-! ### How a sending procedure ends -/

/-- A transaction that failed is not among those before it. -/
theorem not_failed_before {s : State} {pre post : List Event} {x : Txn} (h : answersOk s (pre ++ .bus x .ok :: post) = true) :
    answerOf (after s pre) x ≠ .fail := by
  rw [answersOk_append, answersOk, Bool.and_eq_true, Bool.and_eq_true, beq_iff_eq] at h
  rw [h.2.1]
  decide

/-- The first failing transaction of a list of events has one place. -/
theorem first_failure_unique {s : State} {pre pre' post post' : List Event} {x x' : Txn}
    (h : pre ++ .bus x .ok :: post = pre' ++ .bus x' .ok :: post')
    (hok : answersOk s pre = true) (hok' : answersOk s pre' = true) (hfail : answerOf (after s pre) x = .fail)
    (hfail' : answerOf (after s pre') x' = .fail) : pre = pre' := by
  rcases List.append_eq_append_iff.1 h with ⟨mid, rfl, hmid⟩ | ⟨mid, rfl, hmid⟩
  · cases mid with
    | nil => simp
    | cons e mid =>
      obtain ⟨rfl, -⟩ := List.cons.inj hmid
      exact absurd hfail (not_failed_before hok')
  · cases mid with
    | nil => simp
    | cons e mid =>
      obtain ⟨rfl, -⟩ := List.cons.inj hmid
      exact absurd hfail' (not_failed_before hok)

section

variable {s d : State} {scr : List (State × Event)} {f : State → Flow}

/-- The two ways a sending procedure ends, from the registers of `s` and the bus as `s` has it. -/
theorem Sends.ends (h : Sends s scr d f) (q : Seq) :
    (answersOk s (eventsOf scr) = true ∧ ∃ q', f { s with seq := q } = .done (sent d (eventsOf scr) q')) ∨
    ∃ pre u x post, scr = pre ++ (u, .bus x .ok) :: post ∧ answersOk s (eventsOf pre) = true ∧
      answerOf (after s (eventsOf pre)) x = .fail ∧
      f { s with seq := q } = .raised (raiseTransportError (recordFail x (sent u (eventsOf pre) s.seq))) := by
  have hrun := h.run [] q
  rw [sent_nil] at hrun
  rcases hrun with ⟨hok, q', e⟩ | ⟨pre, u, x, post, hscr, hok, hfail, e⟩
  · rw [sent_nil] at hok
    exact .inl ⟨hok, q', e⟩
  · rw [sent_nil] at hok
    have hpre : AllOk (eventsOf pre) := AllOk.of_append_left (evs' := .bus x .ok :: eventsOf post) (by
      simpa [hscr] using h.allOk)
    exact .inr ⟨pre, u, x, post, hscr, hok, by rwa [after_eq_sent hpre], e⟩

/-- With every transaction answered `ok` it is done. -/
theorem Sends.done (h : Sends s scr d f) (q : Seq) (hok : answersOk s (eventsOf scr) = true) :
    ∃ q', f { s with seq := q } = .done (sent d (eventsOf scr) q') := by
  rcases h.ends q with ⟨-, hdone⟩ | ⟨pre, u, x, post, hscr, -, hfail, -⟩
  · exact hdone
  · rw [hscr, eventsOf, List.map_append, List.map_cons] at hok
    exact absurd hfail (not_failed_before hok)

/-- Where a transaction is the first to fail, the procedure stops there. -/
theorem Sends.stops (h : Sends s scr d f) (q : Seq) {evs : List Event} {x : Txn}
    (hpre : (evs ++ [.bus x .ok]) <+: eventsOf scr) (hok : answersOk s evs = true)
    (hfail : answerOf (after s evs) x = .fail) :
    ∃ pre u post, scr = pre ++ (u, .bus x .ok) :: post ∧ eventsOf pre = evs ∧
      f { s with seq := q } = .raised (raiseTransportError (recordFail x (sent u evs s.seq))) := by
  obtain ⟨rest, hrest⟩ := hpre
  rw [List.append_assoc, List.singleton_append] at hrest
  rcases h.ends q with ⟨hall, -⟩ | ⟨pre, u, y, post, hscr, hok', hfail', e⟩
  · rw [← hrest] at hall
    exact absurd hfail (not_failed_before hall)
  · rw [hscr, eventsOf, List.map_append, List.map_cons] at hrest
    obtain rfl := first_failure_unique hrest hok hok' hfail hfail'
    obtain ⟨hxy, -⟩ := List.cons.inj (List.append_cancel_left hrest)
    obtain rfl : x = y := by injection hxy
    exact ⟨pre, u, post, hscr, rfl, e⟩

/-! As an operation (R264, R268). -/

theorem completedBus_sent (d : State) (evs : List Event) (q : Seq) :
    CompletedBus d evs (freeResult (complete (sent d evs q))) := rfl

theorem abortedBus_sent (u : State) (evs : List Event) (x : Txn) (q : Seq) :
    AbortedBus u evs x (freeResult (raiseTransportError (recordFail x (sent u evs q)))) := by
  refine ⟨Config.freeDelivered u.freeIdx, ?_⟩
  have hdrop : (u.answers.drop (txnsOf evs).length).tail = u.answers.drop ((txnsOf evs).length + 1) := by
    rw [List.tail_drop]
  rw [← hdrop]
  rfl

theorem Sends.runOp_cases (h : Sends s scr d f) {op : Op} (hl : legal op s.lstate = true) :
    (answersOk s (eventsOf scr) = true ∧ ∃ q, runOp op f s = freeResult (complete (sent d (eventsOf scr) q))) ∨
    ∃ pre u x post, scr = pre ++ (u, .bus x .ok) :: post ∧ answersOk s (eventsOf pre) = true ∧
      answerOf (after s (eventsOf pre)) x = .fail ∧
      runOp op f s = freeResult (raiseTransportError (recordFail x (sent u (eventsOf pre) s.seq))) := by
  rw [runOp_legal hl]
  rcases h.ends (begin op s).seq with ⟨hok, q', e⟩ | ⟨pre, u, x, post, hscr, hok, hfail, e⟩
  · exact .inl ⟨hok, q', congrArg finish e⟩
  · exact .inr ⟨pre, u, x, post, hscr, hok, hfail, congrArg finish e⟩

theorem Sends.runOp_completed (h : Sends s scr d f) {op : Op} (hl : legal op s.lstate = true)
    (hok : answersOk s (eventsOf scr) = true) : CompletedBus d (eventsOf scr) (runOp op f s) := by
  obtain ⟨q', e⟩ := h.done (begin op s).seq hok
  rw [runOp_legal hl, show begin op s = { s with seq := (begin op s).seq } from rfl, e]
  exact completedBus_sent d _ q'

theorem Sends.runOp_aborted (h : Sends s scr d f) {op : Op} (hl : legal op s.lstate = true) {evs : List Event} {x : Txn}
    (hpre : (evs ++ [.bus x .ok]) <+: eventsOf scr) (hok : answersOk s evs = true)
    (hfail : answerOf (after s evs) x = .fail) :
    ∃ u, (u, .bus x .ok) ∈ scr ∧ AbortedBus u evs x (runOp op f s) := by
  obtain ⟨pre, u, post, hscr, -, e⟩ := h.stops (begin op s).seq hpre hok hfail
  rw [runOp_legal hl, show begin op s = { s with seq := (begin op s).seq } from rfl, e]
  exact ⟨u, by simp [hscr], abortedBus_sent u evs x s.seq⟩

end

/-! ### A script under fixed registers -/

/-- Events that all stand with the registers of `s`. -/
def steady (s : State) (evs : List Event) : List (State × Event) := evs.map fun e => (s, e)

@[simp] theorem eventsOf_steady (s : State) (evs : List Event) : eventsOf (steady s evs) = evs := by
  simp [eventsOf, steady]

theorem steady_append (s : State) (evs evs' : List Event) : steady s (evs ++ evs') = steady s evs ++ steady s evs' :=
  List.map_append

theorem eq_of_mem_steady {s u : State} {e : Event} {evs : List Event} (h : (u, e) ∈ steady s evs) : u = s := by
  obtain ⟨_, -, heq⟩ := List.mem_map.1 h
  exact (congrArg Prod.fst heq).symm

theorem Sends.steady_completed {s u d : State} {evs : List Event} {f : State → Flow} (h : Sends s (steady u evs) d f)
    {op : Op} (hl : legal op s.lstate = true) (hok : answersOk s evs = true) : CompletedBus d evs (runOp op f s) := by
  simpa using h.runOp_completed hl (by simpa using hok)

theorem Sends.steady_aborted {s u d : State} {evs : List Event} {f : State → Flow} (h : Sends s (steady u evs) d f)
    {op : Op} (hl : legal op s.lstate = true) {pre : List Event} {x : Txn} (hpre : (pre ++ [.bus x .ok]) <+: evs)
    (hok : answersOk s pre = true) (hfail : answerOf (after s pre) x = .fail) : AbortedBus u pre x (runOp op f s) := by
  obtain ⟨v, hv, hab⟩ := h.runOp_aborted hl (by simpa using hpre) hok hfail
  rwa [eq_of_mem_steady hv] at hab

/-- A command whose bytes the bus side does not change. -/
theorem Sends.busCmd {s : State} {c : State → Byte} {args : State → List Byte} (hc : ∀ evs q, c (sent s evs q) = c s)
    (hargs : ∀ evs q, args (sent s evs q) = args s) :
    Sends s (steady s [okCmd (c s) (args s)]) s fun t => busCmd (c t) (args t) t :=
  Sends.busSend (x := fun t => .cmd (c t) (args t)) fun evs q => by simp only [hc, hargs]

/-! ### The flush (R203 to R206) -/

/-- The events of one page of a flush. -/
def pageEvents (s : State) (p : Nat) : List Event :=
  [okCmd (pageByte s.par p) [], okCmd (lowColumnByte s.par (flushColumn s.par s.win.x1)) [],
    okCmd (highColumnByte s.par (flushColumn s.par s.win.x1)) [], .bus (.data (burst s p)) .ok]

theorem flushPage_sends (p : Nat) (s : State) : Sends s (steady s (pageEvents s p)) s (flushPage p) := by
  have hpage := (Sends.busCmd (s := s) (c := fun t => pageByte t.par p) (args := fun _ => []) (fun _ _ => rfl)
    fun _ _ => rfl).afterSeq (g := fun t => setPhase .page (setPage p t)) fun _ _ => ⟨_, rfl⟩
  have hlow := (Sends.busCmd (s := s) (c := fun t => lowColumnByte t.par (flushColumn t.par t.win.x1))
    (args := fun _ => []) (fun _ _ => rfl) fun _ _ => rfl).afterSeq (g := setPhase .lowCol) fun _ _ => ⟨_, rfl⟩
  have hhigh := (Sends.busCmd (s := s) (c := fun t => highColumnByte t.par (flushColumn t.par t.win.x1))
    (args := fun _ => []) (fun _ _ => rfl) fun _ _ => rfl).afterSeq (g := setPhase .highCol) fun _ _ => ⟨_, rfl⟩
  have hdata := (Sends.busSend (s := s) (x := fun t => .data (burst t p)) fun _ _ => rfl).afterSeq
    (g := setPhase .data) fun _ _ => ⟨_, rfl⟩
  exact hpage.bind (hlow.bind (hhigh.bind hdata))

theorem flushLoop_sends (ps : List Nat) (s : State) :
    Sends s (steady s (ps.flatMap (pageEvents s))) s (flushLoop ps) := by
  induction ps with
  | nil => exact Sends.silent (.refl s) fun _ q => ⟨q, rfl⟩
  | cons p ps ih =>
    rw [List.flatMap_cons, steady_append]
    exact (flushPage_sends p s).bind ih

theorem dirtyReset_regsOnly (s : State) : RegsOnly s (dirtyReset s) :=
  ⟨_, s.rot, s.contrast, s.compins, s.muxratio, s.inv, s.lstate, s.fb, rfl⟩

/-! The bytes of a page, by R204 and R205's formulas. -/

theorem ofNat_and_nibble (n : Nat) : BitVec.ofNat 8 n &&& 0x0F = BitVec.ofNat 8 (n % 16) := by
  refine BitVec.eq_of_toNat_eq ?_
  rw [BitVec.toNat_and, BitVec.toNat_ofNat, BitVec.toNat_ofNat, show (0x0F : Byte).toNat = 2 ^ 4 - 1 from rfl,
    Nat.and_two_pow_sub_one_eq_mod]
  omega

theorem pageByte_eq (p : Params) (k : Nat) :
    pageByte p k = p.cmds.pageAddr ||| BitVec.ofNat 8 ((k + p.pageOffset.toNat) % 16) :=
  congrArg (p.cmds.pageAddr ||| ·) (ofNat_and_nibble _)

theorem lowColumnByte_eq (p : Params) (x : Nat) : lowColumnByte p (flushColumn p x) =
    p.cmds.setLowColumn ||| BitVec.ofNat 8 ((x + p.colOffset.toNat) % 256 % 16) := by
  rw [Nat.mod_mod_of_dvd _ (by decide : 16 ∣ 256)]
  exact congrArg (p.cmds.setLowColumn ||| ·) (ofNat_and_nibble _)

theorem highColumnByte_eq (p : Params) (x : Nat) : highColumnByte p (flushColumn p x) =
    p.cmds.setHighColumn ||| BitVec.ofNat 8 ((x + p.colOffset.toNat) % 256 / 16) := by
  have hshift : flushColumn p x >>> 4 = BitVec.ofNat 8 ((x + p.colOffset.toNat) % 256 / 16) := by
    refine BitVec.eq_of_toNat_eq ?_
    rw [BitVec.toNat_ushiftRight, Nat.shiftRight_eq_div_pow, flushColumn, BitVec.toNat_ofNat, BitVec.toNat_ofNat]
    omega
  rw [highColumnByte, hshift]
  refine congrArg (p.cmds.setHighColumn ||| ·) ((ofNat_and_nibble _).trans ?_)
  rw [Nat.mod_eq_of_lt (by omega)]

theorem flushPages_eq (s : State) :
    flushPages s = List.range' (s.win.y1 / 8) (s.win.y2 / 8 + 1 - s.win.y1 / 8) := by
  rw [flushPages, List.range'_eq_map_range]

theorem burst_eq (s : State) (p : Nat) : burst s p =
    (List.range' s.win.x1 (s.win.x2 + 1 - s.win.x1)).map fun x => s.fb.read (x + p * s.par.width) := by
  rw [burst, List.range'_eq_map_range, List.map_map]
  rfl

/-- The events of the pages are those of R203 to R206. -/
theorem flatMap_pageEvents (s : State) : (flushPages s).flatMap (pageEvents s) = flushEvents s := by
  rw [flushEvents, flushPages_eq]
  congr 1
  funext p
  simp only [pageEvents, pageByte_eq, lowColumnByte_eq, highColumnByte_eq, burst_eq]

/-- A flush that finds something to send. -/
theorem flushProc_sends_window {s : State} (h : isEmpty s = false) :
    Sends s (steady s (flushEvents s)) (dirtyReset s) flushProc := by
  have hloop := (flushLoop_sends (flushPages s) s).bind
    (Sends.silent (f := fun t => .done (dirtyReset t)) (dirtyReset_regsOnly s) fun _ q => ⟨q, rfl⟩)
  rw [List.append_nil, flatMap_pageEvents] at hloop
  exact hloop.congr fun evs q => if_neg (c := isEmpty (sent s evs q) = true) (Bool.eq_false_iff.1 h)

/-- The window a flush leaves (R202, R206). -/
def flushed (s : State) : State := if isEmpty s then s else dirtyReset s

theorem flushProc_sends (s : State) :
    Sends s (steady s (if isEmpty s then [] else flushEvents s)) (flushed s) flushProc := by
  unfold flushed
  cases h : isEmpty s with
  | true => exact Sends.silent (.refl s) fun evs q => ⟨q, flushProc_empty h⟩
  | false => exact flushProc_sends_window h

/-! ### The command operations (R210 to R213, R245) -/

theorem powerOn_sends (s : State) :
    Sends s (steady s [okCmd s.par.cmds.displayAllOnResume [], okCmd s.par.cmds.displayOn []]) s (powerProc true) :=
  (Sends.busCmd (c := fun t => t.par.cmds.displayAllOnResume) (args := fun _ => []) (fun _ _ => rfl) fun _ _ => rfl).bind
    (Sends.busCmd (c := fun t => t.par.cmds.displayOn) (args := fun _ => []) (fun _ _ => rfl) fun _ _ => rfl)

theorem displayOff_sends (s : State) :
    Sends s (steady s [okCmd s.par.cmds.displayOff []]) s fun t => busCmd t.par.cmds.displayOff [] t :=
  Sends.busCmd (c := fun t => t.par.cmds.displayOff) (args := fun _ => []) (fun _ _ => rfl) fun _ _ => rfl

theorem powerOff_sends (s : State) : Sends s (steady s [okCmd s.par.cmds.displayOff []]) s (powerProc false) :=
  displayOff_sends s

theorem invert_regsOnly (s : State) (inv : Bool) : RegsOnly s { s with inv := inv } :=
  ⟨s.win, s.rot, s.contrast, s.compins, s.muxratio, inv, s.lstate, s.fb, rfl⟩

theorem contrast_regsOnly (s : State) (v : Byte) : RegsOnly s { s with contrast := v } :=
  ⟨s.win, s.rot, v, s.compins, s.muxratio, s.inv, s.lstate, s.fb, rfl⟩

theorem lstate_regsOnly (s : State) (l : LState) : RegsOnly s { s with lstate := l } :=
  ⟨s.win, s.rot, s.contrast, s.compins, s.muxratio, s.inv, l, s.fb, rfl⟩

/-- The command SETINVERT sends (R211). -/
def invertByte (cs : CmdSet) (inv : Bool) : Byte := if inv then cs.invertDisplay else cs.normalDisplay

theorem invertProc_sends (s : State) (inv : Bool) :
    Sends s (steady { s with inv := inv } [okCmd (invertByte s.par.cmds inv) []]) { s with inv := inv } (invertProc inv) :=
  (Sends.busCmd (s := { s with inv := inv }) (c := fun t => invertByte t.par.cmds inv) (args := fun _ => [])
    (fun _ _ => rfl) fun _ _ => rfl).afterWrite (g := fun t => { t with inv := inv }) (invert_regsOnly s inv) fun _ _ => rfl

theorem contrastProc_sends (s : State) (v : Byte) :
    Sends s (steady { s with contrast := v } [okCmd s.par.cmds.setContrast [v]]) { s with contrast := v }
      (contrastProc v) :=
  (Sends.busCmd (s := { s with contrast := v }) (c := fun t => t.par.cmds.setContrast) (args := fun _ => [v])
    (fun _ _ => rfl) fun _ _ => rfl).afterWrite (g := fun t => { t with contrast := v }) (contrast_regsOnly s v)
      fun _ _ => rfl

theorem rawcmd_sends (s : State) (c : Byte) (args : List Byte) : Sends s (steady s [okCmd c args]) s (busCmd c args) :=
  Sends.busCmd (c := fun _ => c) (args := fun _ => args) (fun _ _ => rfl) fun _ _ => rfl

theorem shutdownProc_sends (s : State) :
    Sends s (steady s [okCmd s.par.cmds.displayOff []]) { s with lstate := .poweredOff } shutdownProc :=
  (displayOff_sends s).bind (Sends.silent (f := fun t => .done { t with lstate := .poweredOff })
    (lstate_regsOnly s .poweredOff) fun _ q => ⟨q, rfl⟩)

end Sys2Proof.Machine
end

section
/-! FLUSH and the command operations, completed and aborted (R203 to R213, R245, R266). -/

namespace Sys2Proof.Machine

/-- Settles O47: what each procedure sends, with every transaction answered `ok`. -/
theorem commandOperationsSendTheirCommands : Obligations.CommandOperationsSendTheirCommands := by
  intro s hl
  have hbus := legalBus_of_poweredOff_or_active hl
  exact ⟨fun h => ⟨_, rfl, (powerOn_sends s).steady_completed hbus h⟩,
    fun h => ⟨_, rfl, (powerOff_sends s).steady_completed hbus h⟩,
    fun h => ⟨_, rfl, (invertProc_sends s true).steady_completed hbus h⟩,
    fun h => ⟨_, rfl, (invertProc_sends s false).steady_completed hbus h⟩,
    fun v h => ⟨_, rfl, (contrastProc_sends s v).steady_completed hbus h⟩,
    fun c args h => ⟨_, rfl, (rawcmd_sends s c args).steady_completed hbus h⟩,
    fun h => ⟨_, rfl, (shutdownProc_sends s).steady_completed hbus h⟩⟩

/-- A procedure whose first transaction fails (R264). -/
theorem Sends.steady_first_fails {s u d : State} {x : Txn} {evs : List Event} {f : State → Flow}
    (h : Sends s (steady u (.bus x .ok :: evs)) d f) {op : Op} (hl : legal op s.lstate = true)
    (hfail : answerOf s x = .fail) : AbortedBus u [] x (runOp op f s) :=
  h.steady_aborted hl ⟨evs, rfl⟩ rfl hfail

/-- Settles O48: what each procedure sends, up to the transaction that fails, under the registers it then has. -/
theorem commandOperationsAbortOnFailure : Obligations.CommandOperationsAbortOnFailure := by
  intro s hl
  have hbus := legalBus_of_poweredOff_or_active hl
  exact ⟨fun h => ⟨_, rfl, (powerOn_sends s).steady_first_fails hbus h⟩,
    fun hok h => ⟨_, rfl, (powerOn_sends s).steady_aborted (op := .setpower) hbus (List.prefix_refl _) hok h⟩,
    fun h => ⟨⟨_, rfl, (powerOff_sends s).steady_first_fails hbus h⟩,
      ⟨_, rfl, (shutdownProc_sends s).steady_first_fails hbus h⟩⟩,
    fun h => ⟨_, rfl, (invertProc_sends s true).steady_first_fails hbus h⟩,
    fun h => ⟨_, rfl, (invertProc_sends s false).steady_first_fails hbus h⟩,
    fun v h => ⟨_, rfl, (contrastProc_sends s v).steady_first_fails hbus h⟩,
    fun c args h => ⟨_, rfl, (rawcmd_sends s c args).steady_first_fails hbus h⟩⟩

/-! ### FLUSH -/

theorem windowInPanel.isEmpty_eq_false {s : State} (h : windowInPanel s) : isEmpty s = false :=
  decide_eq_false h.not_lt.1

theorem windowInPanel.windowFits {s : State} (h : windowInPanel s) : windowFits s = true := by
  obtain ⟨-, hx, -, hy⟩ := h
  simp [Machine.windowFits, hx, hy]

/-- FLUSH of a window on the panel runs as an operation. -/
theorem exec_flush_of_fits {s : State} (h : windowFits s = true) : exec .flush s = .next (runOp .flush flushProc s) :=
  if_neg (by simp [flushLeavesPanel, h])

/-- Settles O43: the flush sends its window's events, and its end resets the window. -/
theorem flushSendsTheWindowAndResetsIt : Obligations.FlushSendsTheWindowAndResetsIt := by
  intro s hl hwin hok
  exact ⟨_, exec_flush_of_fits hwin.windowFits, (flushProc_sends_window hwin.isEmpty_eq_false).steady_completed
    (legalBus_of_poweredOff_or_active hl) hok⟩

/-- Settles O44: the flush stops at the failing transaction under the registers it started with. -/
theorem failedFlushKeepsTheWindow : Obligations.FailedFlushKeepsTheWindow := by
  intro s evs x hl hwin hpre hok hfail
  have hab : AbortedBus s evs x (runOp .flush flushProc s) :=
    (flushProc_sends_window hwin.isEmpty_eq_false).steady_aborted (op := .flush)
      (legalBus_of_poweredOff_or_active hl) hpre hok hfail
  refine ⟨_, exec_flush_of_fits hwin.windowFits, hab, ?_⟩
  obtain ⟨_, e⟩ := hab
  rw [e]
  rfl

/-- The `j`-th of four entries that entry `k` of a list stands for. -/
theorem getElem?_flatMap_four {α β : Type} {f : α → List β} (hf : ∀ a, (f a).length = 4) (l : List α) (k : Nat) {j : Nat}
    (hj : j < 4) : (l.flatMap f)[4 * k + j]? = l[k]?.bind fun a => (f a)[j]? := by
  induction l generalizing k with
  | nil => simp
  | cons a l ih =>
    rw [List.flatMap_cons]
    cases k with
    | zero => rw [List.getElem?_append_left (by rw [hf]; omega)]; simp
    | succ k =>
      rw [List.getElem?_append_right (by rw [hf]; omega), hf, show 4 * (k + 1) + j - 4 = 4 * k + j by omega, ih]
      rfl

/-- Settles O45: a flush that completes has sent its window's events, four for each page. -/
theorem flushHasItsCountedSize : Obligations.FlushHasItsCountedSize := by
  intro s t hl hwin hexec hstatus
  have hpages : s.win.y2 / 8 + 1 - s.win.y1 / 8 = s.win.y2 / 8 - s.win.y1 / 8 + 1 := by
    obtain ⟨-, -, hy, -⟩ := hwin
    omega
  rw [exec_flush_of_fits hwin.windowFits] at hexec
  obtain rfl : runOp .flush flushProc s = t := by injection hexec
  have hsends := flushProc_sends_window hwin.isEmpty_eq_false
  rcases hsends.runOp_cases (op := .flush) (legalBus_of_poweredOff_or_active hl) with
    ⟨-, q, e⟩ | ⟨pre, u, x, post, -, -, -, e⟩
  · refine ⟨flushEvents s, by rw [e, eventsOf_steady]; rfl, ?_, fun k hk => ?_⟩
    · simp [flushEvents, List.length_flatMap, hpages, Nat.mul_comm]
    · obtain ⟨p, hp⟩ : ∃ p, (flushPages s)[k]? = some p :=
        ⟨_, List.getElem?_eq_getElem (by rw [flushPages_eq, List.length_range', hpages]; exact hk)⟩
      have hevent : ∀ j < 4, (flushEvents s)[4 * k + j]? = (pageEvents s p)[j]? := fun j hj => by
        rw [← flatMap_pageEvents, getElem?_flatMap_four (fun _ => rfl) _ _ hj, hp]
        rfl
      refine ⟨_, _, _, burst s p, hevent 0 (by decide), hevent 1 (by decide), hevent 2 (by decide),
        hevent 3 (by decide), ?_⟩
      obtain ⟨hx, -⟩ := hwin
      simp only [burst, List.length_map, List.length_range]
      omega
  · rw [e] at hstatus
    cases hstatus

end Sys2Proof.Machine
end

section
/-! The rotation transform of points and spans (R163, R170), and clipping (R181, R186). -/

namespace Sys2Proof.Machine

/-- A point of the panel (R163). -/
def OnPanel (s : State) (p : Int × Int) : Prop := 0 ≤ p.1 ∧ p.1 < s.par.width ∧ 0 ≤ p.2 ∧ p.2 < s.par.height

/-- A point of the logical screen (R50, R131). -/
def OnScreen (s : State) (x y : Int) : Prop := 0 ≤ x ∧ x < logicalWidth s ∧ 0 ≤ y ∧ y < logicalHeight s

theorem inLogical_iff (s : State) (x y : Int) : inLogical s x y = true ↔ OnScreen s x y := by
  simp only [inLogical, OnScreen, Bool.and_eq_true, decide_eq_true_eq, and_assoc]

/-- A point is on the screen exactly when its image is on the panel (R163). -/
theorem onPanel_xform (s : State) (x y : Int) :
    OnPanel s (xform s.par.width s.par.height s.rot x y) ↔ OnScreen s x y := by
  unfold OnPanel OnScreen
  cases hr : s.rot with
  | r0 =>
    obtain ⟨hw, hh⟩ := logicalSize_of_r0_or_r2 (.inl hr)
    rw [hw, hh, xform_r0]
  | r1 =>
    obtain ⟨hw, hh⟩ := logicalSize_of_r1_or_r3 (.inl hr)
    rw [hw, hh, xform_r1]
    constructor <;> omega
  | r2 =>
    obtain ⟨hw, hh⟩ := logicalSize_of_r0_or_r2 (.inr hr)
    rw [hw, hh, xform_r2]
    constructor <;> omega
  | r3 =>
    obtain ⟨hw, hh⟩ := logicalSize_of_r1_or_r3 (.inr hr)
    rw [hw, hh, xform_r3]
    constructor <;> omega

/-- The point whose image is `(px, py)`: the transform of the opposite rotation, from the screen back (R162). -/
def unxform (w h : Nat) (r : Rot) (px py : Int) : Int × Int :=
  match r with
  | .r0 => (px, py)
  | .r1 => (py, w - 1 - px)
  | .r2 => (w - 1 - px, h - 1 - py)
  | .r3 => (h - 1 - py, px)

theorem xform_eq_iff (w h : Nat) (r : Rot) (x y px py : Int) :
    xform w h r x y = (px, py) ↔ (x, y) = unxform w h r px py := by
  cases r <;> simp only [xform, unxform, Prod.mk.injEq] <;> constructor <;> omega

theorem xform_unxform (w h : Nat) (r : Rot) (p : Int × Int) :
    xform w h r (unxform w h r p.1 p.2).1 (unxform w h r p.1 p.2).2 = p :=
  (xform_eq_iff w h r _ _ p.1 p.2).2 rfl

/-- Settles O34: onto and one-to-one by the inverse, and bounds go to bounds. -/
theorem xformIsABijectionOfThePanel : Obligations.XformIsABijectionOfThePanel := by
  intro s f logical panel
  refine ⟨fun p => (onPanel_xform s p.1 p.2).symm, fun p q h => ?_, fun q hq => ?_⟩
  · exact ((xform_eq_iff _ _ _ p.1 p.2 _ _).1 h).trans ((xform_eq_iff _ _ _ q.1 q.2 _ _).1 rfl).symm
  · have himage := xform_unxform s.par.width s.par.height s.rot q
    refine ⟨unxform s.par.width s.par.height s.rot q.1 q.2, (onPanel_xform s _ _).1 ?_, himage⟩
    rw [himage]
    exact hq

/-- A transformed span covers a point exactly when the span covers the point's origin (R170). -/
theorem covers_xformSpan (w h : Nat) (r : Rot) (d : Dir) (x y len px py : Int) :
    (xformSpan w h r ⟨d, x, y, len⟩).covers px py ↔
      Span.covers ⟨d, x, y, len⟩ (unxform w h r px py).1 (unxform w h r px py).2 := by
  cases r <;> cases d <;> simp only [xformSpan, Span.covers, unxform] <;> constructor <;> omega

theorem covers_xformSpan_iff_image (w h : Nat) (r : Rot) (d : Dir) (x y len px py : Int) :
    (xformSpan w h r ⟨d, x, y, len⟩).covers px py ↔
      ∃ lx ly, Span.covers ⟨d, x, y, len⟩ lx ly ∧ xform w h r lx ly = (px, py) := by
  rw [covers_xformSpan]
  simp only [xform_eq_iff]
  constructor
  · exact fun h => ⟨_, _, h, rfl⟩
  · rintro ⟨lx, ly, hcov, heq⟩
    rwa [← heq]

/-- Settles O35: the eight cells of the table, and the cover by the inverse transform. -/
theorem xformSpanCoversTheImages : Obligations.XformSpanCoversTheImages := by
  intro w h x y len _ sp
  exact ⟨rfl, rfl, rfl, rfl, rfl, rfl, rfl, rfl, fun r d => covers_xformSpan_iff_image w h r d x y len⟩

/-! ### Clipping (R181, R186) -/

/-- What is answered is the part of the run on the panel. -/
theorem clipRun_mem {bound : Nat} {start len : Int} {a n : Nat} (h : clipRun bound start len = some (a, n)) (p : Int) :
    ((a : Int) ≤ p ∧ p < a + n) ↔ (start ≤ p ∧ p < start + len ∧ 0 ≤ p ∧ p < bound) := by
  obtain ⟨-, -, ha, hend⟩ := clipRun_some h
  omega

theorem clipRun_none_iff (bound : Nat) (start len : Int) :
    clipRun bound start len = none ↔ ∀ p : Int, ¬ (start ≤ p ∧ p < start + len ∧ 0 ≤ p ∧ p < bound) := by
  refine ⟨clipRun_none, fun hnone => ?_⟩
  cases hclip : clipRun bound start len with
  | none => rfl
  | some c =>
    obtain ⟨hn, -⟩ := clipRun_some (a := c.1) (n := c.2) hclip
    exact absurd ((clipRun_mem (a := c.1) (n := c.2) hclip c.1).1 (by omega)) (hnone c.1)

theorem hClip_none_iff (w h : Nat) (x y len : Int) : hClip w h x y len = none ↔
    ∀ p : Int, ¬ (x ≤ p ∧ p < x + len ∧ 0 ≤ p ∧ p < w ∧ 0 ≤ y ∧ y < h) := by
  unfold hClip
  split
  · next hy => exact iff_of_true rfl fun p => by omega
  · next hy =>
    rw [Option.map_eq_none_iff, clipRun_none_iff]
    exact forall_congr' fun p => by omega

/-- The vertical clip is the horizontal one with the axes exchanged (R186). -/
theorem vClip_eq_hClip (w h : Nat) (x y len : Int) :
    vClip w h x y len = (hClip h w y x len).map fun c => (c.2.1, c.1, c.2.2) := by
  unfold vClip hClip
  split
  · rfl
  · rw [Option.map_map]
    rfl

theorem hClip_mem {w h : Nat} {x y len : Int} {a r n : Nat} (e : hClip w h x y len = some (a, r, n)) :
    (r : Int) = y ∧ r < h ∧ 1 ≤ n ∧ ∀ p : Int, ((a : Int) ≤ p ∧ p < a + n) ↔ (x ≤ p ∧ p < x + len ∧ 0 ≤ p ∧ p < w) := by
  obtain ⟨hr, hrh, hclip⟩ := hClip_some e
  exact ⟨hr, hrh, (clipRun_some hclip).1, clipRun_mem hclip⟩

theorem vClip_mem {w h : Nat} {x y len : Int} {c a n : Nat} (e : vClip w h x y len = some (c, a, n)) :
    (c : Int) = x ∧ c < w ∧ 1 ≤ n ∧ ∀ p : Int, ((a : Int) ≤ p ∧ p < a + n) ↔ (y ≤ p ∧ p < y + len ∧ 0 ≤ p ∧ p < h) := by
  obtain ⟨hc, hcw, hclip⟩ := vClip_some e
  exact ⟨hc, hcw, (clipRun_some hclip).1, clipRun_mem hclip⟩

/-- Settles O37: both clips are the clip of a run, on a line of the panel. -/
theorem clippingKeepsExactlyThePartOnThePanel : Obligations.ClippingKeepsExactlyThePartOnThePanel := by
  intro w h x y len
  refine ⟨fun a r n e => hClip_mem e, hClip_none_iff w h x y len, fun c a n e => vClip_mem e, ?_⟩
  rw [vClip_eq_hClip, Option.map_eq_none_iff]
  exact hClip_none_iff h w y x len

end Sys2Proof.Machine
end

section
/-! What drawing does to the canvas: the set of pixels that take the mode, and the window folded with them. One relation
for single pixels, spans and sequences of both (R131, R174, R183, R187). -/

namespace Sys2Proof.Machine

/-! ### Addresses -/

/-- Pixels of the panel's columns are told apart by their address and bit (R60). -/
theorem pixel_address_inj {w px py qx qy : Nat} (hp : px < w) (hq : qx < w) (ha : px + py / 8 * w = qx + qy / 8 * w)
    (hb : py % 8 = qy % 8) : px = qx ∧ py = qy := by
  have hw : 0 < w := by omega
  have hx := congrArg (· % w) ha
  have hy := congrArg (· / w) ha
  simp only [Nat.add_mul_mod_self_right, Nat.mod_eq_of_lt hp, Nat.mod_eq_of_lt hq] at hx
  simp only [Nat.add_mul_div_right _ _ hw, Nat.div_eq_of_lt hp, Nat.div_eq_of_lt hq, Nat.zero_add] at hy
  omega

theorem pixelMask_getLsbD (py : Nat) {b : Nat} (hb : b < 8) : (pixelMask py).getLsbD b = decide (b = py % 8) := by
  have hpy : py % 8 < 8 := Nat.mod_lt _ (by decide)
  unfold pixelMask
  generalize py % 8 = k at hpy
  revert k b
  decide

/-! ### Painted pixels -/

/-- A set of physical pixels. -/
abbrev Pixels := Nat → Nat → Prop

/-- `m'` is `m` after the pixels `S` took the mode, in a framebuffer `w` columns wide; no other bit changed. -/
structure Painted (w : Nat) (mode : Mode) (S : Pixels) (m m' : Memory) : Prop where
  wf : m'.wf
  columns : ∀ px py, S px py → px < w
  inside : ∀ px py, S px py →
    (m'.read (px + py / 8 * w)).getLsbD (py % 8) = modeBit mode ((m.read (px + py / 8 * w)).getLsbD (py % 8))
  outside : ∀ a b, b < 8 → (∀ px py, S px py → ¬ (a = px + py / 8 * w ∧ b = py % 8)) →
    (m'.read a).getLsbD b = (m.read a).getLsbD b

section

variable {w : Nat} {mode : Mode} {S S' : Pixels} {m m' m'' : Memory}

theorem Painted.none (hm : m.wf) (hS : ∀ px py, ¬ S px py) : Painted w mode S m m where
  wf := hm
  columns px py h := absurd h (hS px py)
  inside px py h := absurd h (hS px py)
  outside _ _ _ _ := rfl

theorem Painted.congr (h : Painted w mode S m m') (hS : ∀ px py, S' px py ↔ S px py) : Painted w mode S' m m' where
  wf := h.wf
  columns px py hp := h.columns px py ((hS px py).1 hp)
  inside px py hp := h.inside px py ((hS px py).1 hp)
  outside a b hb hout := h.outside a b hb fun px py hp => hout px py ((hS px py).2 hp)

/-- A pixel of the panel's columns that is not in the set keeps its value. -/
theorem Painted.other (h : Painted w mode S m m') {px py : Nat} (hx : px < w) (hS : ¬ S px py) :
    (m'.read (px + py / 8 * w)).getLsbD (py % 8) = (m.read (px + py / 8 * w)).getLsbD (py % 8) := by
  refine h.outside _ _ (Nat.mod_lt _ (by decide)) fun qx qy hq ⟨ha, hb⟩ => hS ?_
  obtain ⟨rfl, rfl⟩ := pixel_address_inj hx (h.columns qx qy hq) ha hb
  exact hq

/-- Setting or clearing a pixel again changes nothing more (R191). -/
theorem modeBit_modeBit (h : mode ≠ .invert) (b : Bool) : modeBit mode (modeBit mode b) = modeBit mode b := by
  cases mode with
  | invert => exact absurd rfl h
  | set | clear => rfl

/-- One set after another; only inverting asks that no pixel is in both. -/
theorem Painted.union (h : Painted w mode S m m') (h' : Painted w mode S' m' m'')
    (hboth : ∀ px py, S px py → S' px py → mode ≠ .invert) : Painted w mode (fun px py => S px py ∨ S' px py) m m'' where
  wf := h'.wf
  columns px py := Or.rec (h.columns px py) (h'.columns px py)
  inside px py hp := by
    by_cases hS' : S' px py
    · by_cases hS : S px py
      · rw [h'.inside px py hS', h.inside px py hS, modeBit_modeBit (hboth px py hS hS')]
      · rw [h'.inside px py hS', h.other (h'.columns px py hS') hS]
    · have hS : S px py := hp.resolve_right hS'
      rw [h'.other (h.columns px py hS) hS', h.inside px py hS]
  outside a b hb hout := by
    rw [h'.outside a b hb fun px py hp => hout px py (.inr hp), h.outside a b hb fun px py hp => hout px py (.inl hp)]

/-- What the pixels and the mode leave is determined. -/
theorem Painted.unique (h : Painted w mode S m m') (h' : Painted w mode S m m'') : m' = m'' := by
  refine Memory.ext_read h.wf h'.wf fun a => BitVec.eq_of_getLsbD_eq fun b hb => ?_
  by_cases hin : ∃ px py, S px py ∧ a = px + py / 8 * w ∧ b = py % 8
  · obtain ⟨px, py, hS, rfl, rfl⟩ := hin
    rw [h.inside px py hS, h'.inside px py hS]
  · have hout : ∀ px py, S px py → ¬ (a = px + py / 8 * w ∧ b = py % 8) := fun px py hS hab => hin ⟨px, py, hS, hab⟩
    rw [h.outside a b hb hout, h'.outside a b hb hout]

theorem painted_writePixel (hm : m.wf) {px py : Nat} (hx : px < w) :
    Painted w mode (fun qx qy => qx = px ∧ qy = py) m (writePixel w mode px py m) where
  wf := Memory.modify_wf hm _ _ _
  columns qx _ h := by omega
  inside qx qy h := by
    obtain ⟨rfl, rfl⟩ := h
    have hb : qy % 8 < 8 := Nat.mod_lt _ (by decide)
    rw [writePixel, Memory.read_modify hm, pixelIndex, if_pos rfl, applyMode_getLsbD _ _ _ hb, pixelMask_getLsbD qy hb]
    simp
  outside a b hb hout := by
    rw [writePixel, Memory.read_modify hm, pixelIndex]
    split
    · next ha =>
      have hne : ¬ b = py % 8 := fun h => hout px py ⟨rfl, rfl⟩ ⟨ha.symm, h⟩
      rw [applyMode_getLsbD _ _ _ hb, pixelMask_getLsbD py hb, ha]
      simp [hne]
    · rfl

/-- The horizontal write is its pixels one after the other (R182). -/
theorem painted_hWrite (hm : m.wf) {x y len : Nat} (hx : x + len ≤ w) :
    Painted w mode (fun px py => py = y ∧ x ≤ px ∧ px < x + len) m (hWrite w mode x y len m) := by
  unfold hWrite
  induction len with
  | zero => exact .none hm fun px py => by omega
  | succ len ih =>
    rw [List.range_succ, List.foldl_append, List.foldl_cons, List.foldl_nil]
    have hrow := ih (by omega)
    have hlast := painted_writePixel (mode := mode) hrow.wf (px := x + len) (py := y) (w := w) (by omega)
    exact (hrow.union hlast fun px py => by omega).congr fun px py => by omega

theorem vWrite_wf (w : Nat) (mode : Mode) (x y len : Nat) (hm : m.wf) : (vWrite w mode x y len m).wf := by
  unfold vWrite
  simp only
  split
  · exact vWriteAligned_wf _ _ _ _ hm
  · exact vWriteAligned_wf _ _ _ _ (Memory.modify_wf hm _ _ _)

/-- The vertical write by R187. -/
theorem painted_vWrite (hm : m.wf) {x y len : Nat} (hx : x < w) :
    Painted w mode (fun px py => px = x ∧ y ≤ py ∧ py < y + len) m (vWrite w mode x y len m) := by
  have hcol := columnWritten_vWrite (x := x) (mode := mode) (Nat.zero_lt_of_lt hx) hm y len
  refine ⟨vWrite_wf w mode x y len hm, fun px py h => by omega, fun px py h => ?_, fun a b hb hout => ?_⟩
  · obtain ⟨rfl, hlo, hhi⟩ := h
    exact hcol.row hlo hhi
  · exact hcol.other hb fun r hlo hhi => hout x r ⟨rfl, hlo, hhi⟩

end

/-! ### The folded window -/

/-- `v'` is the window `v` folded with every pixel of `S` (R151): the least rectangle over all of them. -/
structure Folded (S : Pixels) (v v' : Window) : Prop where
  x1 : ∀ c, c ≤ v'.x1 ↔ c ≤ v.x1 ∧ ∀ px py, S px py → c ≤ px
  y1 : ∀ c, c ≤ v'.y1 ↔ c ≤ v.y1 ∧ ∀ px py, S px py → c ≤ py
  x2 : ∀ c, v'.x2 ≤ c ↔ v.x2 ≤ c ∧ ∀ px py, S px py → px ≤ c
  y2 : ∀ c, v'.y2 ≤ c ↔ v.y2 ≤ c ∧ ∀ px py, S px py → py ≤ c

section

variable {S S' : Pixels} {v v' v'' : Window}

theorem Folded.none (hS : ∀ px py, ¬ S px py) : Folded S v v := by
  constructor <;> intro c <;> simp [hS]

theorem Folded.congr (h : Folded S v v') (hS : ∀ px py, S' px py ↔ S px py) : Folded S' v v' := by
  constructor <;> intro c <;> simp only [hS]
  · exact h.x1 c
  · exact h.y1 c
  · exact h.x2 c
  · exact h.y2 c

theorem Folded.union (h : Folded S v v') (h' : Folded S' v' v'') : Folded (fun px py => S px py ∨ S' px py) v v'' := by
  constructor <;> intro c
  · rw [h'.x1, h.x1, and_assoc]
    simp only [or_imp, forall_and]
  · rw [h'.y1, h.y1, and_assoc]
    simp only [or_imp, forall_and]
  · rw [h'.x2, h.x2, and_assoc]
    simp only [or_imp, forall_and]
  · rw [h'.y2, h.y2, and_assoc]
    simp only [or_imp, forall_and]

theorem Folded.unique (h : Folded S v v') (h' : Folded S v v'') : v' = v'' := by
  have hx1 : v'.x1 = v''.x1 := eq_of_forall_le_iff fun c => (h.x1 c).trans (h'.x1 c).symm
  have hy1 : v'.y1 = v''.y1 := eq_of_forall_le_iff fun c => (h.y1 c).trans (h'.y1 c).symm
  have hx2 : v'.x2 = v''.x2 := eq_of_forall_ge_iff fun c => (h.x2 c).trans (h'.x2 c).symm
  have hy2 : v'.y2 = v''.y2 := eq_of_forall_ge_iff fun c => (h.y2 c).trans (h'.y2 c).symm
  cases v'
  cases v''
  simp_all

/-- Folding with a rectangle is folding with its pixels. -/
theorem folded_rectangle {x1 y1 x2 y2 : Nat} (hx : x1 ≤ x2) (hy : y1 ≤ y2) :
    Folded (fun px py => x1 ≤ px ∧ px ≤ x2 ∧ y1 ≤ py ∧ py ≤ y2) v
      { x1 := min v.x1 x1, y1 := min v.y1 y1, x2 := max v.x2 x2, y2 := max v.y2 y2 } where
  x1 c := by
    rw [le_min_iff]
    refine and_congr_right fun _ => ⟨fun hc px py h => by omega, fun h => h x1 y1 ?_⟩
    exact ⟨le_rfl, hx, le_rfl, hy⟩
  y1 c := by
    rw [le_min_iff]
    refine and_congr_right fun _ => ⟨fun hc px py h => by omega, fun h => h x1 y1 ?_⟩
    exact ⟨le_rfl, hx, le_rfl, hy⟩
  x2 c := by
    rw [max_le_iff]
    refine and_congr_right fun _ => ⟨fun hc px py h => by omega, fun h => h x2 y2 ?_⟩
    exact ⟨hx, le_rfl, hy, le_rfl⟩
  y2 c := by
    rw [max_le_iff]
    refine and_congr_right fun _ => ⟨fun hc px py h => by omega, fun h => h x2 y2 ?_⟩
    exact ⟨hx, le_rfl, hy, le_rfl⟩

/-- The folded window holds the pixels. -/
theorem Folded.holds (h : Folded S v v') {px py : Nat} (hS : S px py) : inWindow v' px py :=
  ⟨((h.x1 _).1 le_rfl).2 px py hS, ((h.x2 _).1 le_rfl).2 px py hS, ((h.y1 _).1 le_rfl).2 px py hS,
    ((h.y2 _).1 le_rfl).2 px py hS⟩

/-- Folding takes no pixel out of the window. -/
theorem Folded.grows (h : Folded S v v') {px py : Nat} (hin : inWindow v px py) : inWindow v' px py := by
  obtain ⟨hx1, hx2, hy1, hy2⟩ := hin
  exact ⟨((h.x1 _).1 le_rfl).1.trans hx1, hx2.trans ((h.x2 _).1 le_rfl).1, ((h.y1 _).1 le_rfl).1.trans hy1,
    hy2.trans ((h.y2 _).1 le_rfl).1⟩

end

/-! ### Drawing procedures -/

/-- `t` is `s` after the pixels `S` took the mode and were folded into the window. -/
structure Drawn (mode : Mode) (S : Pixels) (s t : State) : Prop where
  par : t.par = s.par
  rot : t.rot = s.rot
  fb : Painted s.par.width mode S s.fb t.fb
  win : Folded S s.win t.win

section

variable {mode : Mode} {S S' : Pixels} {s t u : State}

theorem Drawn.none (hm : s.fb.wf) (hS : ∀ px py, ¬ S px py) : Drawn mode S s s :=
  ⟨rfl, rfl, .none hm hS, .none hS⟩

theorem Drawn.congr (h : Drawn mode S s t) (hS : ∀ px py, S' px py ↔ S px py) : Drawn mode S' s t :=
  ⟨h.par, h.rot, h.fb.congr hS, h.win.congr hS⟩

theorem Drawn.union (h : Drawn mode S s t) (h' : Drawn mode S' t u)
    (hboth : ∀ px py, S px py → S' px py → mode ≠ .invert) : Drawn mode (fun px py => S px py ∨ S' px py) s u :=
  ⟨h'.par.trans h.par, h'.rot.trans h.rot, h.fb.union (h.par ▸ h'.fb) hboth, h.win.union h'.win⟩

theorem Drawn.pixel (h : Drawn mode S s t) {px py : Nat} (hS : S px py) :
    pixel t px py = modeBit mode (pixel s px py) := by
  unfold Machine.pixel
  rw [h.par]
  exact h.fb.inside px py hS

theorem Drawn.pixel_other (h : Drawn mode S s t) {px py : Nat} (hx : px < s.par.width) (hS : ¬ S px py) :
    Machine.pixel t px py = Machine.pixel s px py := by
  unfold Machine.pixel
  rw [h.par]
  exact h.fb.other hx hS

/-- Two drawings of the same pixels leave the same canvas. -/
theorem Drawn.unique (h : Drawn mode S s t) (h' : Drawn mode S s u) : t.fb = u.fb ∧ t.win = u.win :=
  ⟨h.fb.unique h'.fb, h.win.unique h'.win⟩

/-- A canvas drawn from a state is drawn from any state with the same panel, rotation and canvas. -/
theorem Drawn.of_eq {s' t' : State} (h : Drawn mode S s t) (hs : s'.par = s.par ∧ s'.rot = s.rot ∧ s'.fb = s.fb ∧ s'.win = s.win)
    (ht : t'.par = t.par ∧ t'.rot = t.rot ∧ t'.fb = t.fb ∧ t'.win = t.win) : Drawn mode S s' t' := by
  obtain ⟨h1, h2, h3, h4⟩ := hs
  obtain ⟨h5, h6, h7, h8⟩ := ht
  refine ⟨?_, ?_, ?_, ?_⟩
  · rw [h5, h1, h.par]
  · rw [h6, h2, h.rot]
  · rw [h1, h3, h7]
    exact h.fb
  · rw [h4, h8]
    exact h.win

/-- The physical pixels of a set of points. -/
def panelPixels (s : State) (P : Int → Int → Prop) : Pixels := fun px py => px < s.par.width ∧ py < s.par.height ∧ P px py

/-- The pixel a logical point is (R162), if it is on the screen. -/
def imagePixel (s : State) (x y : Int) : Pixels :=
  panelPixels s fun px py => xform s.par.width s.par.height s.rot x y = (px, py)

theorem imagePixel_iff_of_onScreen {x y : Int} (h : OnScreen s x y) (px py : Nat) :
    imagePixel s x y px py ↔ px = (physical s x y).1 ∧ py = (physical s x y).2 := by
  obtain ⟨h1, h2, h3, h4⟩ := (onPanel_xform s x y).2 h
  simp only [imagePixel, panelPixels, physical, Prod.ext_iff]
  omega

theorem not_imagePixel_of_not_onScreen {x y : Int} (h : ¬ OnScreen s x y) (px py : Nat) : ¬ imagePixel s x y px py := by
  rintro ⟨hx, hy, himage⟩
  refine h ((onPanel_xform s x y).1 ?_)
  rw [himage]
  exact ⟨by simp, by simpa using hx, by simp, by simpa using hy⟩

theorem setPixel_on {x y : Int} (h : OnScreen s x y) (mode : Mode) : setPixel x y mode s =
    expand (physical s x y).1 (physical s x y).2 (physical s x y).1 (physical s x y).2
      { s with fb := writePixel s.par.width mode (physical s x y).1 (physical s x y).2 s.fb } :=
  if_pos ((inLogical_iff s x y).2 h)

theorem setPixel_off {x y : Int} (h : ¬ OnScreen s x y) (mode : Mode) : setPixel x y mode s = s :=
  if_neg fun hin => h ((inLogical_iff s x y).1 hin)

/-- SETPIXEL draws the image of its point (R131). -/
theorem setPixel_drawn (hm : s.fb.wf) (x y : Int) (mode : Mode) :
    Drawn mode (imagePixel s x y) s (setPixel x y mode s) := by
  by_cases h : OnScreen s x y
  · rw [setPixel_on h]
    have hx : (physical s x y).1 < s.par.width := (physical_lt ((inLogical_iff s x y).2 h)).1
    refine ⟨rfl, rfl, ?_, ?_⟩
    · exact (painted_writePixel hm hx).congr (imagePixel_iff_of_onScreen h)
    · exact (folded_rectangle le_rfl le_rfl).congr fun px py => by
        rw [imagePixel_iff_of_onScreen h]
        omega
  · rw [setPixel_off h]
    exact .none hm (not_imagePixel_of_not_onScreen h)

theorem hSpanPhys_none {x y len : Int} (h : hClip s.par.width s.par.height x y len = .none) (mode : Mode) :
    hSpanPhys x y len mode s = s := by
  simp [hSpanPhys, h]

theorem hSpanPhys_some {x y len : Int} {a r n : Nat} (h : hClip s.par.width s.par.height x y len = some (a, r, n))
    (mode : Mode) : hSpanPhys x y len mode s =
      expand a r (a + n - 1) r { s with fb := hWrite s.par.width mode a r n s.fb } := by
  simp [hSpanPhys, h]

/-- HSPAN draws the part of its run on the panel (R183). -/
theorem hSpanPhys_drawn (hm : s.fb.wf) (x y len : Int) (mode : Mode) :
    Drawn mode (panelPixels s (Span.covers ⟨.horizontal, x, y, len⟩)) s (hSpanPhys x y len mode s) := by
  cases hclip : hClip s.par.width s.par.height x y len with
  | none =>
    rw [hSpanPhys_none hclip]
    refine .none hm fun px py h => (hClip_none_iff _ _ x y len).1 hclip px ?_
    simp only [panelPixels, Span.covers] at h
    omega
  | some c =>
    obtain ⟨a, r, n⟩ := c
    obtain ⟨hr, hrh, hn, hmem⟩ := hClip_mem hclip
    have hend := (hmem (a + n - 1)).1 (by omega)
    have hset : ∀ px py, panelPixels s (Span.covers ⟨.horizontal, x, y, len⟩) px py ↔ py = r ∧ a ≤ px ∧ px < a + n :=
      fun px py => by
        have := hmem px
        simp only [panelPixels, Span.covers]
        omega
    rw [hSpanPhys_some hclip]
    exact ⟨rfl, rfl, (painted_hWrite hm (by omega)).congr hset,
      (folded_rectangle (by omega) le_rfl).congr fun px py => by
        rw [hset]
        omega⟩

/-- VSPAN draws the part of its run on the panel (R187, R189). -/
theorem vSpanPhys_drawn (hm : s.fb.wf) (x y len : Int) (mode : Mode) :
    Drawn mode (panelPixels s (Span.covers ⟨.vertical, x, y, len⟩)) s (vSpanPhys x y len mode s) := by
  cases hclip : vClip s.par.width s.par.height x y len with
  | none =>
    rw [vSpanPhys_none hclip]
    refine .none hm fun px py h => ?_
    rw [vClip_eq_hClip, Option.map_eq_none_iff, hClip_none_iff] at hclip
    refine hclip py ?_
    simp only [panelPixels, Span.covers] at h
    omega
  | some c =>
    obtain ⟨c, a, n⟩ := c
    obtain ⟨hc, hcw, hn, hmem⟩ := vClip_mem hclip
    have hset : ∀ px py, panelPixels s (Span.covers ⟨.vertical, x, y, len⟩) px py ↔ px = c ∧ a ≤ py ∧ py < a + n :=
      fun px py => by
        have := hmem py
        simp only [panelPixels, Span.covers]
        omega
    rw [vSpanPhys_some hclip]
    exact ⟨rfl, rfl, (painted_vWrite hm hcw).congr hset,
      (folded_rectangle le_rfl (by omega)).congr fun px py => by
        rw [hset]
        omega⟩

theorem writeSpan_drawn (hm : s.fb.wf) (sp : Span) (mode : Mode) :
    Drawn mode (panelPixels s sp.covers) s (writeSpan sp mode s) := by
  obtain ⟨d, x, y, len⟩ := sp
  cases d with
  | horizontal => exact hSpanPhys_drawn hm x y len mode
  | vertical => exact vSpanPhys_drawn hm x y len mode

/-- LHSPAN and LVSPAN draw the images of their pixels (R171, R172, R176). -/
theorem logicalSpan_drawn (hm : s.fb.wf) (d : Dir) (x y len : Int) (mode : Mode) :
    Drawn mode (fun px py => ∃ lx ly, Span.covers ⟨d, x, y, len⟩ lx ly ∧ imagePixel s lx ly px py) s
      (logicalSpan d x y len mode s) := by
  unfold logicalSpan
  split
  · next hlen =>
    refine .none hm fun px py ⟨lx, ly, hcov, _⟩ => ?_
    cases d <;> simp only [Span.covers] at hcov <;> omega
  · refine (writeSpan_drawn hm _ mode).congr fun px py => ?_
    simp only [panelPixels, imagePixel, covers_xformSpan_iff_image]
    constructor
    · rintro ⟨lx, ly, hcov, hx, hy, himage⟩
      exact ⟨hx, hy, lx, ly, hcov, himage⟩
    · rintro ⟨hx, hy, lx, ly, hcov, himage⟩
      exact ⟨lx, ly, hcov, hx, hy, himage⟩

end

end Sys2Proof.Machine
end

section
/-! SETPIXEL, GETPIXEL, FILL, RDBUF, the spans, and their companions that touch no pixel. -/

namespace Sys2Proof.Machine

/-- Settles O7: `Apply` on a lane is the mode's own bit (R191). -/
theorem applyActsLaneByLane : Obligations.ApplyActsLaneByLane := fun mode b m _ hn => applyMode_getLsbD mode b m hn

/-- Settles O9: the fields of a construction, and the parameters reset is constructed with. -/
theorem resetHasTheDocumentedDefaults : Obligations.ResetHasTheDocumentedDefaults :=
  ⟨fun _ _ => ⟨rfl, rfl, rfl, rfl, rfl⟩, ⟨Params.scenario, Unstated.zero, rfl⟩, rfl, rfl, rfl, rfl, rfl⟩

/-- Two foldings are one with the least rectangle over both (R151). -/
theorem expand_expand (s : State) (x1 y1 x2 y2 u1 v1 u2 v2 : Nat) :
    expand u1 v1 u2 v2 (expand x1 y1 x2 y2 s) = expand (min x1 u1) (min y1 v1) (max x2 u2) (max y2 v2) s := by
  simp only [expand, min_assoc, max_assoc]

/-- Settles O10: the order of two foldings is the order of the arguments of min and max. -/
theorem expandFoldsRectangles : Obligations.ExpandFoldsRectangles := by
  intro s x1 y1 x2 y2 u1 v1 u2 v2
  refine ⟨rfl, fun hs hx hx' hy hy' => expand_empty hs (hx.trans hx'.le) (hy.trans hy'.le), ?_,
    expand_expand s x1 y1 x2 y2 u1 v1 u2 v2, ?_⟩
  · rw [expand_expand, expand_expand, min_comm x1, min_comm y1, max_comm x2, max_comm y2]
  · rw [expand_expand, min_self, min_self, max_self, max_self]

/-! ### Whole operations without bus traffic -/

/-- A legal operation that is one procedure without bus traffic. -/
theorem runOp_done {op : Op} {s : State} (h : legal op s.lstate = true) (g : State → State) :
    runOp op (fun t => .done (g t)) s = freeResult (complete (g (begin op s))) := runOp_legal h _

/-- A legal read. -/
theorem runRead_some {op : Op} {s : State} {value : State → Option Byte} {v : Byte} (h : legal op s.lstate = true)
    (hv : value s = some v) : runRead op value s = complete { s with result := v } := by
  simp [runRead, h, hv]

/-- A refused operation, in the form of log 4. -/
theorem sameButRefused_refuse (s : State) : SameButRefused s (refuse s) := rfl

theorem refuse_begin (op : Op) (s : State) : refuse (begin op s) = refuse s := rfl

theorem fblen_eq (s : State) : fblen s = s.par.width * ((s.par.height + 7) / 8) := rfl

/-- Settles O22: FILL INVERT refuses in its procedure if not before, RDBUF finds no byte. -/
theorem fillInvertAndOutsideReadsAreRefused : Obligations.FillInvertAndOutsideReadsAreRefused := by
  intro s n hn
  have hfill : runOp .fill (fillProc .invert) s = refuse s := by
    cases hl : legal .fill s.lstate with
    | true => exact (runOp_legal hl _).trans (refuse_begin .fill s)
    | false => exact runOp_illegal hl _
  have hread : runRead .rdbuf (readBuffer n) s = refuse s := by
    have hout : readBuffer n s = none := if_neg (Nat.not_lt.2 hn)
    simp [runRead, hout]
  exact ⟨⟨_, rfl, hfill ▸ sameButRefused_refuse s⟩, ⟨_, rfl, hread ▸ sameButRefused_refuse s⟩⟩

/-- Settles O32: inside the buffer the read answers its byte. -/
theorem rdbufReadsItsByte : Obligations.RdbufReadsItsByte := by
  intro s n hl hn
  have hread : runRead .rdbuf (readBuffer n) s = complete { s with result := s.fb.read n } :=
    runRead_some (op := .rdbuf) (legalBuffer_of_ne hl) (if_pos hn)
  exact congrArg Host.Outcome.next hread

/-- Settles O36: each procedure writes at most its one register. -/
theorem presetupReleaseAndSetrotationTouchNothingElse : Obligations.PresetupReleaseAndSetrotationTouchNothingElse := by
  intro s
  refine ⟨fun h => ⟨_, rfl, ?_⟩, fun h => ⟨_, rfl, ?_⟩, fun r h => ⟨_, rfl, ?_⟩⟩
  · rw [runOp_legal (op := .presetup) (by rw [h]; rfl)]
    rfl
  · rw [runOp_legal (op := .release) (by rw [h]; rfl)]
    rfl
  · rw [runOp_legal (op := .setrotation) (legalBuffer_of_ne h)]
    rfl

/-! ### Drawing operations -/

theorem exec_setpixel {s : State} (h : s.lstate ≠ .hardwareReleased) (x y : Int) (mode : Mode) :
    exec (.setpixel x y mode) s = .next (freeResult (complete (setPixel x y mode (begin .setpixel s)))) :=
  congrArg Host.Outcome.next (runOp_done (op := .setpixel) (legalBuffer_of_ne h) _)

theorem exec_hspan {s : State} (h : s.lstate ≠ .hardwareReleased) (x y len : Int) (mode : Mode) :
    exec (.hspan x y len mode) s = .next (freeResult (complete (hSpanPhys x y len mode (begin .hspan s)))) :=
  congrArg Host.Outcome.next (runOp_done (op := .hspan) (legalBuffer_of_ne h) _)

theorem exec_lhspan {s : State} (h : s.lstate ≠ .hardwareReleased) (x y len : Int) (mode : Mode) :
    exec (.lhspan x y len mode) s =
      .next (freeResult (complete (logicalSpan .horizontal x y len mode (begin .lhspan s)))) :=
  congrArg Host.Outcome.next (runOp_done (op := .lhspan) (legalBuffer_of_ne h) _)

theorem exec_lvspan {s : State} (h : s.lstate ≠ .hardwareReleased) (x y len : Int) (mode : Mode) :
    exec (.lvspan x y len mode) s =
      .next (freeResult (complete (logicalSpan .vertical x y len mode (begin .lvspan s)))) :=
  congrArg Host.Outcome.next (runOp_done (op := .lvspan) (legalBuffer_of_ne h) _)

/-- What a procedure draws, the whole operation draws. -/
theorem Drawn.completed {mode : Mode} {S : Pixels} {op : Op} {s u : State} (h : Drawn mode S (begin op s) u) :
    Drawn mode S s (freeResult (complete u)) := h.of_eq ⟨rfl, rfl, rfl, rfl⟩ ⟨rfl, rfl, rfl, rfl⟩

/-! ### Pixels -/

/-- The image of a point on the screen, as the address it is computed to (R131). -/
theorem physical_eq_xform {s : State} {x y : Int} (h : OnScreen s x y) :
    (((physical s x y).1 : Int), ((physical s x y).2 : Int)) = xform s.par.width s.par.height s.rot x y := by
  obtain ⟨h1, -, h3, -⟩ := (onPanel_xform s x y).2 h
  exact Prod.ext (Int.toNat_of_nonneg h1) (Int.toNat_of_nonneg h3)

/-- Settles O28: off the screen the procedure does nothing, on it it draws one pixel. -/
theorem setpixelWritesItsPixel : Obligations.SetpixelWritesItsPixel := by
  intro s x y mode hl hm
  refine ⟨_, exec_setpixel hl x y mode, (setPixel_drawsOnly x y mode _).sameButCanvas, fun hoff => ?_,
    fun h1 h2 h3 h4 => ?_⟩
  · rw [setPixel_off (s := begin .setpixel s) (by exact hoff)]
    exact ⟨rfl, rfl⟩
  · have hon : OnScreen s x y := ⟨h1, h2, h3, h4⟩
    obtain ⟨hx, hy⟩ := physical_lt ((inLogical_iff s x y).2 hon)
    have hpaint := painted_writePixel (mode := mode) (py := (physical s x y).2) hm hx
    refine ⟨_, _, physical_eq_xform hon, hx, hy, ?_⟩
    rw [setPixel_on (s := begin .setpixel s) hon]
    refine ⟨hpaint.inside _ _ ⟨rfl, rfl⟩, fun a b hb hne => hpaint.outside a b hb ?_, rfl⟩
    rintro px py ⟨rfl, rfl⟩
    exact hne

theorem and_pixelMask (b : Byte) (py : Nat) : b &&& pixelMask py = if b.getLsbD (py % 8) then pixelMask py else 0 := by
  refine BitVec.eq_of_getLsbD_eq fun i hi => ?_
  rw [BitVec.getLsbD_and, pixelMask_getLsbD py hi]
  by_cases hb : i = py % 8
  · subst hb
    cases hbit : b.getLsbD (py % 8) <;> simp [pixelMask_getLsbD py hi]
  · cases hbit : b.getLsbD (py % 8) <;> simp [pixelMask_getLsbD py hi, hb]

theorem pixelMask_ne_zero (py : Nat) : pixelMask py ≠ 0 := fun h => by
  have hbit := pixelMask_getLsbD py (Nat.mod_lt py (by decide : 0 < 8))
  simp [h] at hbit

/-- Reading a pixel is reading its bit (R60). -/
theorem pixelOn_eq_pixel (s : State) (px py : Nat) : pixelOn s.par.width px py s.fb = pixel s px py := by
  rw [pixelOn, and_pixelMask]
  change _ = (s.fb.read (pixelIndex s.par.width px py)).getLsbD (py % 8)
  cases (s.fb.read (pixelIndex s.par.width px py)).getLsbD (py % 8) with
  | true => simpa using pixelMask_ne_zero py
  | false => rfl

theorem getPixel_on {s : State} {x y : Int} (h : OnScreen s x y) :
    getPixel x y s = if pixel s (physical s x y).1 (physical s x y).2 then 1 else 0 := by
  rw [← pixelOn_eq_pixel]
  exact if_pos ((inLogical_iff s x y).2 h)

theorem getPixel_off {s : State} {x y : Int} (h : ¬ OnScreen s x y) : getPixel x y s = 0 :=
  if_neg fun hin => h ((inLogical_iff s x y).1 hin)

theorem exec_getpixel {s : State} (h : s.lstate ≠ .hardwareReleased) (x y : Int) :
    exec (.getpixel x y) s = .next (complete { s with result := getPixel x y s }) :=
  congrArg Host.Outcome.next (runRead_some (op := .getpixel) (legalBuffer_of_ne h) rfl)

/-- Settles O29: the read answers the pixel of the point's image. -/
theorem getpixelReadsItsPixel : Obligations.GetpixelReadsItsPixel := by
  intro s x y hl
  refine ⟨_, exec_getpixel hl x y, getPixel_off, fun h1 h2 h3 h4 => ?_⟩
  exact ⟨_, _, physical_eq_xform ⟨h1, h2, h3, h4⟩, getPixel_on ⟨h1, h2, h3, h4⟩⟩

theorem execAll_cons {i : Instr} {rest : List Instr} {s t : State} (h : exec i s = .next t) :
    execAll (i :: rest) s = execAll rest t := by
  simp [execAll, h]

/-- A pixel set, cleared or inverted is read back so. -/
theorem getpixel_after_setpixel {s : State} {x y : Int} (hl : s.lstate ≠ .hardwareReleased) (hm : s.fb.wf)
    (h : OnScreen s x y) (mode : Mode) : ∃ t, execAll [.setpixel x y mode, .getpixel x y] s = .next t ∧
      t.result = if modeBit mode (pixel s (physical s x y).1 (physical s x y).2) then 1 else 0 := by
  have hexec := exec_setpixel hl x y mode
  have hdrawn := (setPixel_drawn (s := begin .setpixel s) hm x y mode).completed
  rw [setPixel_on (s := begin .setpixel s) h] at hexec hdrawn
  refine ⟨_, (execAll_cons hexec).trans (execAll_cons (exec_getpixel (by exact hl) x y)), (getPixel_on (by exact h)).trans ?_⟩
  rw [← hdrawn.pixel ((imagePixel_iff_of_onScreen h _ _).2 ⟨rfl, rfl⟩)]
  rfl

/-- Settles O30: what the mode made of the pixel is what is read. -/
theorem pixelsRoundTripAtEveryRotation : Obligations.PixelsRoundTripAtEveryRotation := by
  intro s x y hl hm h1 h2 h3 h4
  exact ⟨getpixel_after_setpixel hl hm ⟨h1, h2, h3, h4⟩ .set, getpixel_after_setpixel hl hm ⟨h1, h2, h3, h4⟩ .clear⟩

/-! ### FILL -/

/-- The byte FILL writes (R135). -/
def fillByte (mode : Mode) : Byte := if mode = .set then 0xFF else 0x00

theorem exec_fill {s : State} (hl : s.lstate ≠ .hardwareReleased) {mode : Mode} (h : mode = .set ∨ mode = .clear) :
    exec (.fill mode) s = .next (freeResult (complete (fillWith (fillByte mode) (begin .fill s)))) := by
  rcases h with rfl | rfl
  · exact congrArg Host.Outcome.next (runOp_legal (op := .fill) (legalBuffer_of_ne hl) _)
  · exact congrArg Host.Outcome.next (runOp_legal (op := .fill) (legalBuffer_of_ne hl) _)

/-- From a window in order FILL leaves the whole panel dirty (R135). -/
theorem fillWith_window {s : State} (hwin : WindowOk s) (hw : 1 ≤ s.par.width) (hh : 1 ≤ s.par.height) (v : Byte) :
    (fillWith v s).win = { x1 := 0, y1 := 0, x2 := s.par.width - 1, y2 := s.par.height - 1 } := by
  rw [fillWith_win, Window.mk.injEq]
  rcases hwin with hempty | ⟨-, hx, -, hy⟩
  · rw [hempty]
    simp only
    omega
  · omega

theorem fillByte_getLsbD {mode : Mode} {b : Nat} (hb : b < 8) : (fillByte mode).getLsbD b = decide (mode = .set) := by
  unfold fillByte
  split
  · next h => rw [byte_ff_getLsbD hb, h]; rfl
  · next h => simp [h]

/-- After FILL every pixel of the panel has the mode's value. -/
theorem pixel_fillWith (s : State) (mode : Mode) {px py : Nat} (hx : px < s.par.width) (hy : py < s.par.height) :
    pixel (fillWith (fillByte mode) s) px py = decide (mode = .set) := by
  have hlt : px + py / 8 * s.par.width < fblen s := pixelIndex_lt hx hy
  unfold pixel fbBit
  rw [fillWith_fb, fillWith_par, Memory.read_fill, if_pos hlt, fillByte_getLsbD (Nat.mod_lt _ (by decide))]

/-- Settles O31: the fill byte by bytes and by pixels, and the window over the whole panel. -/
theorem fillSetsEveryByteAndDirtiesThePanel : Obligations.FillSetsEveryByteAndDirtiesThePanel := by
  intro s hl hwin hw hh mode hmode
  refine ⟨_, exec_fill hl hmode, rfl, fun a ha => ?_, fun a ha => ?_,
    fillWith_window (s := begin .fill s) hwin hw hh _, fun x y h1 h2 h3 h4 => ?_⟩
  · exact (Memory.read_fill _ _ _ a).trans (if_pos ha)
  · exact (Memory.read_fill _ _ _ a).trans (if_neg (Nat.not_lt.2 ha))
  · have hon : OnScreen s x y := ⟨h1, h2, h3, h4⟩
    obtain ⟨hx, hy⟩ := physical_lt ((inLogical_iff s x y).2 hon)
    refine ⟨_, exec_getpixel (by exact hl) x y, (getPixel_on (by exact hon)).trans ?_⟩
    have hpixel := pixel_fillWith (begin .fill s) mode hx hy
    exact (congrArg (fun b : Bool => if b then (1 : Byte) else 0) hpixel).trans (by simp)

/-! ### Spans -/

/-- Settles O38: the clipped run is the row that the horizontal write takes. -/
theorem hspanWritesExactlyItsClippedPixels : Obligations.HspanWritesExactlyItsClippedPixels := by
  intro s x y len mode hl hm
  refine ⟨_, exec_hspan hl x y len mode, (hSpanPhys_drawsOnly x y len mode _).sameButCanvas, fun hclip => ?_,
    fun a r n hclip => ?_⟩
  · rw [hSpanPhys_none (s := begin .hspan s) hclip]
    exact ⟨rfl, rfl⟩
  · obtain ⟨-, -, hrun⟩ := hClip_some hclip
    have hpaint := painted_hWrite (mode := mode) (y := r) hm (clipRun_some hrun).2.1
    rw [hSpanPhys_some (s := begin .hspan s) hclip]
    refine ⟨fun i hi => hpaint.inside (a + i) r (by omega), fun k b hb hout => hpaint.outside k b hb ?_, rfl⟩
    rintro px py ⟨rfl, hlo, hhi⟩
    have hpx := hout (px - a) (by omega)
    rwa [show a + (px - a) = px by omega] at hpx

/-- A run that is on the panel is not clipped. -/
theorem clipRun_whole {bound : Nat} (h : 1 ≤ bound) : clipRun bound 0 bound = some (0, bound) := by
  have hbound : bound ≠ 0 := by omega
  simp [clipRun, hbound]

theorem hClip_whole {w h : Nat} (hw : 1 ≤ w) {y : Int} (h0 : 0 ≤ y) (hy : y < h) :
    hClip w h 0 y w = some (0, y.toNat, w) := by
  rw [hClip, if_neg (by omega), clipRun_whole hw]
  rfl

theorem vClip_whole {w h : Nat} (hh : 1 ≤ h) {x : Int} (h0 : 0 ≤ x) (hx : x < w) :
    vClip w h x 0 h = some (x.toNat, 0, h) := by
  rw [vClip_eq_hClip, hClip_whole hh h0 hx]
  rfl

/-- From the empty window a whole row is its own window (R151). -/
theorem hSpanPhys_whole_win {s : State} (hs : windowEmpty s) (hw : 1 ≤ s.par.width) {y : Int} (h0 : 0 ≤ y)
    (hy : y < s.par.height) (mode : Mode) : (hSpanPhys 0 y s.par.width mode s).win =
      { x1 := 0, y1 := y.toNat, x2 := s.par.width - 1, y2 := y.toNat } := by
  rw [hSpanPhys_some (hClip_whole hw h0 hy), Nat.zero_add]
  exact expand_empty hs (Nat.zero_le _) (by omega)

theorem vSpanPhys_whole_win {s : State} (hs : windowEmpty s) (hh : 1 ≤ s.par.height) {x : Int} (h0 : 0 ≤ x)
    (hx : x < s.par.width) (mode : Mode) : (vSpanPhys x 0 s.par.height mode s).win =
      { x1 := x.toNat, y1 := 0, x2 := x.toNat, y2 := s.par.height - 1 } := by
  rw [vSpanPhys_some (vClip_whole hh h0 hx), Nat.zero_add]
  exact expand_empty hs (by omega) (Nat.zero_le _)

theorem logicalSpan_pos {s : State} {d : Dir} {x y len : Int} (h : 1 ≤ len) (mode : Mode) : logicalSpan d x y len mode s =
    writeSpan (xformSpan s.par.width s.par.height s.rot ⟨d, x, y, len⟩) mode s := if_neg (by omega)

/-- At rotations 0 and 2 the full-width span is a row of the panel. -/
theorem lhspan_whole_row {s : State} (hs : windowEmpty s) (hw : 1 ≤ s.par.width) (hr : s.rot = .r0 ∨ s.rot = .r2) {y : Int}
    (h0 : 0 ≤ y) (hy : y < logicalHeight s) (mode : Mode) : ∃ row,
    (logicalSpan .horizontal 0 y (logicalWidth s) mode s).win = { x1 := 0, y1 := row, x2 := s.par.width - 1, y2 := row } := by
  obtain ⟨hlw, hlh⟩ := logicalSize_of_r0_or_r2 hr
  rw [hlh] at hy
  rw [hlw, logicalSpan_pos (by omega)]
  rcases hr with hr | hr
  · rw [hr]
    exact ⟨_, hSpanPhys_whole_win hs hw h0 hy mode⟩
  · have hspan : xformSpan s.par.width s.par.height .r2 ⟨.horizontal, 0, y, s.par.width⟩ =
        ⟨.horizontal, 0, s.par.height - 1 - y, s.par.width⟩ := by simp [xformSpan]
    rw [hr, hspan]
    exact ⟨_, hSpanPhys_whole_win (y := s.par.height - 1 - y) hs hw (by omega) (by omega) mode⟩

/-- At rotations 1 and 3 it is a column. -/
theorem lhspan_whole_column {s : State} (hs : windowEmpty s) (hh : 1 ≤ s.par.height) (hr : s.rot = .r1 ∨ s.rot = .r3)
    {y : Int} (h0 : 0 ≤ y) (hy : y < logicalHeight s) (mode : Mode) : ∃ column,
    (logicalSpan .horizontal 0 y (logicalWidth s) mode s).win =
      { x1 := column, y1 := 0, x2 := column, y2 := s.par.height - 1 } := by
  obtain ⟨hlw, hlh⟩ := logicalSize_of_r1_or_r3 hr
  rw [hlh] at hy
  rw [hlw, logicalSpan_pos (by omega)]
  rcases hr with hr | hr
  · rw [hr]
    exact ⟨_, vSpanPhys_whole_win (x := s.par.width - 1 - y) hs hh (by omega) (by omega) mode⟩
  · have hspan : xformSpan s.par.width s.par.height .r3 ⟨.horizontal, 0, y, s.par.height⟩ =
        ⟨.vertical, y, 0, s.par.height⟩ := by simp [xformSpan]
    rw [hr, hspan]
    exact ⟨_, vSpanPhys_whole_win hs hh h0 hy mode⟩

/-- Settles O46: by rotation, the full-width span is a whole row or a whole column of the panel. -/
theorem fullWidthSpanDirtiesThePagesOfItsRotation : Obligations.FullWidthSpanDirtiesThePagesOfItsRotation := by
  intro s y mode hl hw hh hempty h0 hy
  refine ⟨_, exec_lhspan hl 0 y (logicalWidth s) mode, fun hr => ?_, fun hr => ?_⟩
  · obtain ⟨row, hrow⟩ := lhspan_whole_row (s := begin .lhspan s) hempty hw hr h0 hy mode
    rw [show (freeResult (complete (logicalSpan .horizontal 0 y (logicalWidth s) mode (begin .lhspan s)))).win = _ from hrow]
    exact ⟨rfl, rfl, rfl⟩
  · obtain ⟨column, hcolumn⟩ := lhspan_whole_column (s := begin .lhspan s) hempty hh hr h0 hy mode
    rw [show (freeResult (complete (logicalSpan .horizontal 0 y (logicalWidth s) mode (begin .lhspan s)))).win = _
      from hcolumn]
    refine ⟨rfl, ?_⟩
    simp only [begin_par]
    omega

/-! ### SETPIXELs one after the other (R174) -/

/-- SETPIXELs of points, no point twice where the mode inverts, draw the images of the points. -/
theorem execAll_setpixels {mode : Mode} (pts : List (Int × Int)) (hnodup : mode = .invert → pts.Nodup) {s : State}
    (hl : s.lstate ≠ .hardwareReleased) (hm : s.fb.wf) :
    ∃ u, execAll (pts.map fun p => .setpixel p.1 p.2 mode) s = .next u ∧
      Drawn mode (fun px py => ∃ p ∈ pts, imagePixel s p.1 p.2 px py) s u := by
  induction pts generalizing s with
  | nil => exact ⟨s, rfl, .none hm fun px py => by simp⟩
  | cons p pts ih =>
    have hfirst := (setPixel_drawn (s := begin .setpixel s) hm p.1 p.2 mode).completed
    have hexec := exec_setpixel hl p.1 p.2 mode
    have hlstate : (freeResult (complete (setPixel p.1 p.2 mode (begin .setpixel s)))).lstate = s.lstate := by
      obtain ⟨m, w, e⟩ := setPixel_drawsOnly p.1 p.2 mode (begin .setpixel s)
      rw [e]
      rfl
    generalize freeResult (complete (setPixel p.1 p.2 mode (begin .setpixel s))) = t at hfirst hexec hlstate
    obtain ⟨u, hu, hdrawn⟩ := ih (fun h => (hnodup h).of_cons) (s := t) (by rwa [hlstate]) hfirst.fb.wf
    have himage : ∀ x y, imagePixel t x y = imagePixel s x y := fun x y => by
      unfold imagePixel panelPixels
      rw [hfirst.par, hfirst.rot]
    simp only [himage] at hdrawn
    refine ⟨u, (execAll_cons hexec).trans hu, (hfirst.union hdrawn ?_).congr fun px py => ?_⟩
    · rintro px py ⟨-, -, hp⟩ ⟨q, hq, -, -, hq'⟩ hinvert
      have hpq : p = q := ((xform_eq_iff _ _ _ p.1 p.2 _ _).1 hp).trans ((xform_eq_iff _ _ _ q.1 q.2 _ _).1 hq').symm
      exact (List.nodup_cons.1 (hnodup hinvert)).1 (hpq ▸ hq)
    · simp only [List.mem_cons, exists_eq_or_imp]
      rfl

/-- A logical span and the SETPIXELs of its pixels in any order leave one canvas. -/
theorem logicalSpan_eq_setpixels {s t : State} {d : Dir} {x y len : Int} {mode : Mode} (hl : s.lstate ≠ .hardwareReleased)
    (hm : s.fb.wf) (pt : Nat → Int × Int) (hpt : ∀ i j, pt i = pt j → i = j)
    (hcov : ∀ lx ly, Span.covers ⟨d, x, y, len⟩ lx ly ↔ ∃ i : Nat, i < len.toNat ∧ pt i = (lx, ly))
    {l : List Nat} (hperm : l.Perm (List.range len.toNat))
    (ht : Drawn mode (fun px py => ∃ lx ly, Span.covers ⟨d, x, y, len⟩ lx ly ∧ imagePixel s lx ly px py) s t) :
    ∃ u, execAll (l.map fun i => .setpixel (pt i).1 (pt i).2 mode) s = .next u ∧ t.fb = u.fb ∧ t.win = u.win := by
  have hnodup : (l.map pt).Nodup := (hperm.nodup_iff.2 List.nodup_range).map fun i j h => hpt i j h
  obtain ⟨u, hu, hdrawn⟩ := execAll_setpixels (mode := mode) (l.map pt) (fun _ => hnodup) hl hm
  rw [List.map_map] at hu
  refine ⟨u, hu, ht.unique (hdrawn.congr fun px py => ?_)⟩
  simp only [hcov, List.mem_map, hperm.mem_iff, List.mem_range]
  constructor
  · rintro ⟨lx, ly, ⟨i, hi, e⟩, himage⟩
    exact ⟨pt i, ⟨i, hi, rfl⟩, by rw [e]; exact himage⟩
  · rintro ⟨p, ⟨i, hi, rfl⟩, himage⟩
    exact ⟨_, _, ⟨i, hi, rfl⟩, himage⟩

/-- Settles O41: span and pixels draw the same set. -/
theorem logicalSpansEqualTheirPixels : Obligations.LogicalSpansEqualTheirPixels := by
  intro s x y len mode l hl hm hperm
  refine ⟨?_, ?_⟩
  · obtain ⟨u, hu, hcanvas⟩ := logicalSpan_eq_setpixels (d := .horizontal) (x := x) (y := y) hl hm
      (fun i : Nat => (x + i, y)) (fun i j h => by simpa using h)
      (fun lx ly => by
        simp only [Span.covers, Prod.mk.injEq]
        exact ⟨fun h => ⟨(lx - x).toNat, by omega⟩, fun ⟨i, h⟩ => by omega⟩) hperm
      (logicalSpan_drawn (s := begin .lhspan s) hm .horizontal x y len mode).completed
    exact ⟨_, u, exec_lhspan hl x y len mode, (logicalSpan_drawsOnly .horizontal x y len mode _).sameButCanvas, hu, hcanvas⟩
  · obtain ⟨u, hu, hcanvas⟩ := logicalSpan_eq_setpixels (d := .vertical) (x := x) (y := y) hl hm
      (fun i : Nat => (x, y + i)) (fun i j h => by simpa using h)
      (fun lx ly => by
        simp only [Span.covers, Prod.mk.injEq]
        exact ⟨fun h => ⟨(ly - y).toNat, by omega⟩, fun ⟨i, h⟩ => by omega⟩) hperm
      (logicalSpan_drawn (s := begin .lvspan s) hm .vertical x y len mode).completed
    exact ⟨_, u, exec_lvspan hl x y len mode, (logicalSpan_drawsOnly .vertical x y len mode _).sameButCanvas, hu, hcanvas⟩

end Sys2Proof.Machine
end

section
/-! INIT as a sending procedure (R230 to R242): what each action of the table sends, and with which registers. The table
is followed by its own recursion, so that a failing step finds the registers the steps before it left. -/

namespace Sys2Proof.Machine

/-! ### Drawing does not look at the bus side -/

theorem setPixel_sent (x y : Int) (mode : Mode) (s : State) (evs : List Event) (q : Seq) :
    setPixel x y mode (sent s evs q) = sent (setPixel x y mode s) evs q := by
  by_cases h : OnScreen s x y
  · rw [setPixel_on h, setPixel_on (s := sent s evs q) h]
    rfl
  · rw [setPixel_off h, setPixel_off (s := sent s evs q) h]

theorem blit_sent (sp : Splash) (a : Asset) (s : State) (evs : List Event) (q : Seq) :
    blit sp a (sent s evs q) = sent (blit sp a s) evs q := by
  unfold blit
  generalize assetPixels a = l
  induction l generalizing s with
  | nil => rfl
  | cons c l ih => rw [List.foldl_cons, List.foldl_cons, setPixel_sent, ih]

theorem clearOrSplash_sent (s : State) (evs : List Event) (q : Seq) :
    clearOrSplash (sent s evs q) = sent (clearOrSplash s) evs q := by
  unfold clearOrSplash
  rw [show (sent s evs q).par = s.par from rfl]
  split
  · rfl
  · rw [← blit_sent]
    split <;> rfl

/-! ### One step of the table -/

/-- The registers after an action of the table (R231). -/
def actionMade (a : InitAction) (s : State) : State :=
  match a with
  | .lifecycle l => { s with lstate := l }
  | .command w _ _ => initWrite w s
  | .startLine => s
  | .applyRotation => { s with rot := s.par.cfgRotation }
  | .clearOrSplash => clearOrSplash s
  | .flush => flushed s

/-- The registers while an action sends: the flush resets the window only at its end, the other writes come first. -/
def actionDuring (a : InitAction) (s : State) : State :=
  match a with
  | .flush => s
  | a => actionMade a s

/-- What an action sends (R231). -/
def actionEvents (a : InitAction) (s : State) : List Event :=
  match a with
  | .command w c args => [okCmd (s.par.cmds.byte c) (args.map (initArg (initWrite w s)))]
  | .startLine => [okCmd (startLineByte s.par) []]
  | .flush => if isEmpty s then [] else flushEvents s
  | .lifecycle _ | .applyRotation | .clearOrSplash => []

theorem RegsOnly.symm {s d : State} (h : RegsOnly s d) : RegsOnly d s := by
  obtain ⟨_, _, _, _, _, _, _, _, rfl⟩ := h
  exact ⟨s.win, s.rot, s.contrast, s.compins, s.muxratio, s.inv, s.lstate, s.fb, rfl⟩

theorem RegsOnly.par {s d : State} (h : RegsOnly s d) : d.par = s.par := by
  obtain ⟨_, _, _, _, _, _, _, _, rfl⟩ := h; rfl

theorem initWrite_regsOnly (w : InitWrite) (s : State) : RegsOnly s (initWrite w s) := by
  cases w <;> exact ⟨_, _, _, _, _, _, _, _, rfl⟩

theorem flushed_regsOnly (s : State) : RegsOnly s (flushed s) := by
  unfold flushed
  split
  · exact .refl s
  · exact dirtyReset_regsOnly s

theorem actionMade_regsOnly (a : InitAction) (s : State) : RegsOnly s (actionMade a s) := by
  cases a with
  | lifecycle l => exact lstate_regsOnly s l
  | command w c args => exact initWrite_regsOnly w s
  | startLine => exact .refl s
  | applyRotation => exact ⟨_, _, _, _, _, _, _, _, rfl⟩
  | clearOrSplash => exact (clearOrSplash_drawsOnly s).regsOnly
  | flush => exact flushed_regsOnly s

theorem actionDuring_of_ne {a : InitAction} (h : a ≠ .flush) (s : State) : actionDuring a s = actionMade a s := by
  cases a with
  | flush => exact absurd rfl h
  | lifecycle | command | startLine | applyRotation | clearOrSplash => rfl

theorem actionDuring_regsOnly (a : InitAction) (s : State) : RegsOnly s (actionDuring a s) := by
  by_cases h : a = .flush
  · subst h
    exact .refl s
  · rw [actionDuring_of_ne h]
    exact actionMade_regsOnly a s

theorem initWrite_sent (w : InitWrite) (s : State) (evs : List Event) (q : Seq) :
    initWrite w (sent s evs q) = sent (initWrite w s) evs q := by cases w <;> rfl

theorem initArg_sent (s : State) (evs : List Event) (q : Seq) : initArg (sent s evs q) = initArg s := by
  funext a
  cases a <;> rfl

/-- An action sends its events with its registers. -/
theorem initAction_sends (a : InitAction) (s : State) :
    Sends s (steady (actionDuring a s) (actionEvents a s)) (actionMade a s) (initAction a) := by
  cases a with
  | lifecycle l => exact Sends.silent (lstate_regsOnly s l) fun _ q => ⟨q, rfl⟩
  | command w c args =>
    have hcmd := (Sends.busCmd (s := initWrite w s) (c := fun t => t.par.cmds.byte c)
      (args := fun t => args.map (initArg t)) (fun _ _ => rfl) fun evs q => by rw [initArg_sent]).afterWrite
      (initWrite_regsOnly w s) (initWrite_sent w s)
    rwa [initWrite_par] at hcmd
  | startLine => exact Sends.busCmd (c := fun t => startLineByte t.par) (args := fun _ => []) (fun _ _ => rfl) fun _ _ => rfl
  | applyRotation => exact Sends.silent (actionMade_regsOnly .applyRotation s) fun _ q => ⟨q, rfl⟩
  | clearOrSplash =>
    exact Sends.silent (actionMade_regsOnly .clearOrSplash s) fun evs q =>
      ⟨q, congrArg Flow.done (clearOrSplash_sent s evs q)⟩
  | flush => exact flushProc_sends s

/-- The delay after step `k` (R232), with whatever registers it is listed. -/
theorem stepDelay_sends (k : Nat) {s u : State} (hu : RegsOnly s u) :
    Sends s (steady u (if s.par.initDelay.getD k 0 = 0 then [] else [.delay (s.par.initDelay.getD k 0)])) s
      fun t => .done (stepDelay k t) := by
  split
  · next h => exact Sends.silent (.refl s) fun evs q => ⟨q, congrArg Flow.done (if_pos h)⟩
  · next h =>
    refine ⟨fun x hx => by simp at hx, .refl s, fun c hc => ?_, fun evs q => .inl ⟨rfl, q, congrArg Flow.done ?_⟩⟩
    · obtain rfl := List.mem_singleton.1 hc
      exact hu
    · refine (if_neg h).trans ?_
      simp [sent, txnsOf_append, txnsOf]

theorem map_snd_initStepEvents (p : Params) (k : Nat) (evs : List Event) :
    (initStepEvents p k evs).map Prod.snd =
      evs ++ if p.initDelay.getD k 0 = 0 then [] else [.delay (p.initDelay.getD k 0)] := by
  rw [initStepEvents, List.map_map]
  exact List.map_id _

/-- Step `k` sends its action's events and its delay. -/
theorem initStep_sends (k : Nat) (a : InitAction) (s : State) :
    Sends s (steady (actionDuring a s) ((initStepEvents s.par k (actionEvents a s)).map Prod.snd)) (actionMade a s) (initStep k a) := by
  have haction := (initAction_sends a s).afterSeq (g := setStep k) fun _ _ => ⟨_, rfl⟩
  have hdelay := stepDelay_sends k (s := actionMade a s) (u := actionDuring a s)
    ((actionMade_regsOnly a s).symm.trans (actionDuring_regsOnly a s))
  rw [(actionMade_regsOnly a s).par] at hdelay
  rw [map_snd_initStepEvents, steady_append]
  exact haction.bind hdelay

/-! ### The table -/

/-- The events of a table from step `k` on, each with its step. -/
def tableSteps (k : Nat) (table : List InitAction) (s : State) : List (Nat × Event) :=
  match table with
  | [] => []
  | a :: rest => initStepEvents s.par k (actionEvents a s) ++ tableSteps (k + 1) rest (actionMade a s)

/-- The registers after a table. -/
def tableMade (table : List InitAction) (s : State) : State := table.foldl (fun s a => actionMade a s) s

/-- The registers while the `j`-th action of a table sends. -/
def tableAt (table : List InitAction) (s : State) (j : Nat) : State :=
  match table, j with
  | [], _ => s
  | a :: _, 0 => actionDuring a s
  | a :: rest, j + 1 => tableAt rest (actionMade a s) j

theorem step_of_mem_initStepEvents {p : Params} {k : Nat} {evs : List Event} {c : Nat × Event}
    (h : c ∈ initStepEvents p k evs) : c.1 = k := by
  obtain ⟨_, -, rfl⟩ := List.mem_map.1 h
  rfl

theorem step_le_of_mem_tableSteps {k : Nat} {table : List InitAction} {s : State} {c : Nat × Event}
    (h : c ∈ tableSteps k table s) : k ≤ c.1 := by
  induction table generalizing k s with
  | nil => simp [tableSteps] at h
  | cons a rest ih =>
    rcases List.mem_append.1 h with h | h
    · exact (step_of_mem_initStepEvents h).ge
    · exact (Nat.le_succ k).trans (ih h)

/-- The events of a table, each with the registers of its step. -/
def tableScript (k : Nat) (table : List InitAction) (s : State) : List (State × Event) :=
  (tableSteps k table s).map fun c => (tableAt table s (c.1 - k), c.2)

theorem tableScript_cons (k : Nat) (a : InitAction) (rest : List InitAction) (s : State) :
    tableScript k (a :: rest) s =
      steady (actionDuring a s) ((initStepEvents s.par k (actionEvents a s)).map Prod.snd) ++ tableScript (k + 1) rest (actionMade a s) := by
  rw [tableScript, tableSteps, List.map_append]
  congr 1
  · rw [steady, List.map_map]
    refine List.map_congr_left fun c hc => ?_
    rw [step_of_mem_initStepEvents hc, Nat.sub_self]
    rfl
  · refine List.map_congr_left fun c hc => ?_
    have hk := step_le_of_mem_tableSteps hc
    rw [show c.1 - k = c.1 - (k + 1) + 1 by omega]
    rfl

theorem runInit_sends (k : Nat) (table : List InitAction) (s : State) :
    Sends s (tableScript k table s) (tableMade table s) (runInit k table) := by
  induction table generalizing k s with
  | nil => exact Sends.silent (.refl s) fun _ q => ⟨q, rfl⟩
  | cons a rest ih =>
    rw [tableScript_cons]
    exact (initStep_sends k a s).bind (ih (k + 1) (actionMade a s))

theorem eventsOf_tableScript (k : Nat) (table : List InitAction) (s : State) :
    eventsOf (tableScript k table s) = (tableSteps k table s).map Prod.snd := by
  rw [eventsOf, tableScript, List.map_map]
  rfl

theorem tableSteps_append (k : Nat) (table table' : List InitAction) (s : State) :
    tableSteps k (table ++ table') s = tableSteps k table s ++ tableSteps (k + table.length) table' (tableMade table s) := by
  induction table generalizing k s with
  | nil => rfl
  | cons a rest ih =>
    rw [List.cons_append, tableSteps, tableSteps, ih, List.append_assoc, List.length_cons, Nat.add_comm rest.length 1,
      ← Nat.add_assoc]
    rfl

/-! ### The init table (R231) -/

/-- Steps 0 to 16. -/
def initConfigTable : List InitAction := initTable.take 17

/-- Steps 18 to 20. -/
def initPowerTable : List InitAction := initTable.drop 18

theorem initTable_eq : initTable = initConfigTable ++ .flush :: initPowerTable := rfl

/-- The registers that steps 0 to 15 leave (R234, R236, R238, R239). -/
def configured (s : State) : State :=
  { s with
    lstate := .poweredOff, muxratio := BitVec.ofNat 8 (s.par.height - 1)
    compins := (profile s.par.width s.par.height).1, contrast := (profile s.par.width s.par.height).2
    inv := false, rot := s.par.cfgRotation }

/-- The registers that step 16 leaves. -/
def drawnState (s : State) : State := clearOrSplash (configured s)

theorem tableMade_append (table table' : List InitAction) (s : State) :
    tableMade (table ++ table') s = tableMade table' (tableMade table s) := List.foldl_append

theorem tableMade_config (s : State) : tableMade initConfigTable s = drawnState s := by
  simp [tableMade, initConfigTable, initTable, actionMade, initWrite, drawnState, configured]

theorem tableMade_power (s : State) : tableMade initPowerTable s = { s with lstate := .active } := by
  simp [tableMade, initPowerTable, initTable, actionMade, initWrite]

theorem tableMade_initTable (s : State) : tableMade initTable s = { flushed (drawnState s) with lstate := .active } := by
  rw [initTable_eq, tableMade_append, tableMade_config]
  exact tableMade_power (flushed (drawnState s))

theorem startLineByte_eq (p : Params) :
    startLineByte p = p.cmds.setStartLine ||| BitVec.ofNat 8 (p.startLine.toNat % 64) := by
  have hmask : p.startLine &&& 0x3F = BitVec.ofNat 8 (p.startLine.toNat % 64) := by
    refine BitVec.eq_of_toNat_eq ?_
    rw [BitVec.toNat_and, BitVec.toNat_ofNat, show (0x3F : Byte).toNat = 2 ^ 6 - 1 from rfl,
      Nat.and_two_pow_sub_one_eq_mod]
    omega
  exact congrArg (p.cmds.setStartLine ||| ·) hmask

theorem tableSteps_config (s : State) : tableSteps 0 initConfigTable s = initConfigSteps s.par := by
  simp [tableSteps, initConfigTable, initTable, actionMade, actionEvents, initWrite, initArg, CmdSet.byte,
    startLineByte_eq, initConfigSteps]

theorem tableSteps_power (s : State) : tableSteps 18 initPowerTable s = initPowerSteps s.par := by
  simp [tableSteps, initPowerTable, initTable, actionMade, actionEvents, initWrite, CmdSet.byte, initPowerSteps]

theorem drawnState_par (s : State) : (drawnState s).par = s.par := (clearOrSplash_drawsOnly (configured s)).par

/-- The events of the init table, by what step 16 leaves to flush. -/
theorem tableSteps_initTable (s : State) : tableSteps 0 initTable s =
    initConfigSteps s.par ++
    initStepEvents s.par 17 (if isEmpty (drawnState s) then [] else flushEvents (drawnState s)) ++
    initPowerSteps s.par := by
  rw [initTable_eq, tableSteps_append, tableSteps_config, tableMade_config, List.append_assoc]
  have hpower := tableSteps_power (flushed (drawnState s))
  rw [(flushed_regsOnly _).par, drawnState_par] at hpower
  rw [← hpower, ← drawnState_par s]
  rfl

end Sys2Proof.Machine
end

section
/-! INIT as an operation: completed, failed, and what its step 16 draws (R233, R240 to R242, R248). -/

namespace Sys2Proof.Machine

/-! ### The canvas that step 16 draws -/

/-- The same panel, rotation, framebuffer and window: all that drawing looks at. -/
structure SameCanvas (s t : State) : Prop where
  par : t.par = s.par
  rot : t.rot = s.rot
  fb : t.fb = s.fb
  win : t.win = s.win

theorem SameCanvas.trans {s t u : State} (h : SameCanvas s t) (h' : SameCanvas t u) : SameCanvas s u :=
  ⟨h'.par.trans h.par, h'.rot.trans h.rot, h'.fb.trans h.fb, h'.win.trans h.win⟩

theorem SameCanvas.logicalWidth {s t : State} (h : SameCanvas s t) : logicalWidth t = logicalWidth s := by
  simp only [Machine.logicalWidth, h.par, h.rot]

theorem SameCanvas.logicalHeight {s t : State} (h : SameCanvas s t) : logicalHeight t = logicalHeight s := by
  simp only [Machine.logicalHeight, h.par, h.rot]

theorem SameCanvas.setPixel {s t : State} (h : SameCanvas s t) (x y : Int) (mode : Mode) :
    SameCanvas (setPixel x y mode s) (setPixel x y mode t) := by
  have hscreen : OnScreen t x y ↔ OnScreen s x y := by
    unfold OnScreen
    rw [h.logicalWidth, h.logicalHeight]
  have hphys : physical t x y = physical s x y := by
    unfold physical
    rw [h.par, h.rot]
  by_cases hon : OnScreen s x y
  · rw [setPixel_on hon, setPixel_on (hscreen.2 hon), hphys]
    exact ⟨h.par, h.rot, by simp [h.par, h.fb], by simp [h.win]⟩
  · rwa [setPixel_off hon, setPixel_off (fun ht => hon (hscreen.1 ht))]

theorem SameCanvas.fillWith {s t : State} (h : SameCanvas s t) (v : Byte) : SameCanvas (fillWith v s) (fillWith v t) :=
  ⟨h.par, h.rot, by simp [h.fb, fblen_eq, h.par], by simp [h.win, h.par]⟩

/-- SETPIXEL of points one after the other, as procedures. -/
def setPixels (pts : List (Int × Int)) (s : State) : State := pts.foldl (fun t p => setPixel p.1 p.2 .set t) s

theorem SameCanvas.setPixels {s t : State} (h : SameCanvas s t) (pts : List (Int × Int)) :
    SameCanvas (setPixels pts s) (setPixels pts t) := by
  induction pts generalizing s t with
  | nil => exact h
  | cons p pts ih => exact ih (h.setPixel p.1 p.2 .set)

/-- The points that a splash asset's 1 bits fall on, row by row (R240). -/
def splashPoints (sp : Splash) (a : Asset) : List (Int × Int) :=
  (assetPixels a).map fun c => (sp.x0 + c.1, sp.y0 + c.2)

theorem blit_eq_setPixels (sp : Splash) (a : Asset) (s : State) : blit sp a s = setPixels (splashPoints sp a) s := by
  rw [setPixels, splashPoints, List.foldl_map]
  rfl

theorem SameCanvas.clearOrSplash {s t : State} (h : SameCanvas s t) : SameCanvas (clearOrSplash s) (clearOrSplash t) := by
  unfold Machine.clearOrSplash
  rw [h.par]
  split
  · exact h.fillWith _
  · rw [blit_eq_setPixels, blit_eq_setPixels]
    refine SameCanvas.setPixels ?_ _
    split
    · exact h.fillWith _
    · exact h

/-! The instructions that step 16 amounts to draw the same. -/

/-- FILL CLEAR, if the splash clears first, and SETPIXEL of the asset's 1 bits. -/
def splashInstrs (sp : Splash) (a : Asset) : List Instr :=
  (if sp.clearsFirst then [.fill .clear] else []) ++
    (List.range a.h).flatMap fun j => (List.range a.w).flatMap fun i =>
      if a.bits.getD (j * a.w + i) false then [.setpixel (sp.x0 + i) (sp.y0 + j) .set] else []

theorem flatMap_ite_singleton {α β : Type} (l : List α) (p : α → Bool) (f : α → β) :
    (l.flatMap fun a => if p a then [f a] else []) = (l.filter p).map f := by
  induction l with
  | nil => rfl
  | cons a l ih =>
    rw [List.flatMap_cons, ih, List.filter_cons]
    split <;> rfl

theorem splashInstrs_eq (sp : Splash) (a : Asset) : splashInstrs sp a =
    (if sp.clearsFirst then [.fill .clear] else []) ++ (splashPoints sp a).map fun p => .setpixel p.1 p.2 .set := by
  simp only [splashInstrs, splashPoints, assetPixels, flatMap_ite_singleton, List.map_flatMap, List.map_map]
  rfl

/-- With no asset step 16 is FILL CLEAR (R240). -/
theorem drawInstrs_none {p : Params} (h : splashAsset p = none) : drawInstrs p = [.fill .clear] := by
  unfold splashAsset at h
  unfold drawInstrs
  cases hn : p.noSplash with
  | true => rfl
  | false =>
    cases hs : p.splash with
    | none => rfl
    | some sp =>
      simp only [hn, hs, Bool.false_eq_true, if_false, Option.map_eq_none_iff] at h ⊢
      rw [h]

theorem drawInstrs_some {p : Params} {sp : Splash} {a : Asset} (h : splashAsset p = some (sp, a)) :
    drawInstrs p = splashInstrs sp a := by
  unfold splashAsset at h
  unfold drawInstrs
  cases hn : p.noSplash with
  | true => simp [hn] at h
  | false =>
    cases hs : p.splash with
    | none => simp [hn, hs] at h
    | some sp' =>
      simp only [hn, hs, Bool.false_eq_true, if_false, Option.map_eq_some_iff, Prod.mk.injEq] at h ⊢
      obtain ⟨a', ha, rfl, rfl⟩ := h
      rw [ha]
      rfl

theorem execAll_append {is js : List Instr} {s t : State} (h : execAll is s = .next t) :
    execAll (is ++ js) s = execAll js t := by
  induction is generalizing s with
  | nil =>
    obtain rfl : s = t := by injection h
    rfl
  | cons i is ih =>
    rw [execAll] at h
    split at h
    · next t' hexec =>
      rw [List.cons_append, execAll_cons hexec]
      exact ih h
    · cases h
    · cases h

theorem sameCanvas_completed (op : Op) (s : State) : SameCanvas s (begin op s) := ⟨rfl, rfl, rfl, rfl⟩

/-- SETPIXELs, run as operations, leave the canvas of their procedures. -/
theorem execAll_setPixels (pts : List (Int × Int)) {s : State} (hl : s.lstate ≠ .hardwareReleased) :
    ∃ u, execAll (pts.map fun p => .setpixel p.1 p.2 .set) s = .next u ∧ SameCanvas (setPixels pts s) u := by
  induction pts generalizing s with
  | nil => exact ⟨s, rfl, rfl, rfl, rfl, rfl⟩
  | cons p pts ih =>
    have hexec := exec_setpixel hl p.1 p.2 .set
    have hcanvas : SameCanvas (setPixel p.1 p.2 .set s)
        (freeResult (complete (setPixel p.1 p.2 .set (begin .setpixel s)))) := by
      obtain ⟨h1, h2, h3, h4⟩ := (sameCanvas_completed .setpixel s).setPixel p.1 p.2 .set
      exact ⟨h1, h2, h3, h4⟩
    have hlstate : (freeResult (complete (setPixel p.1 p.2 .set (begin .setpixel s)))).lstate = s.lstate := by
      obtain ⟨m, w, e⟩ := setPixel_drawsOnly p.1 p.2 .set (begin .setpixel s)
      rw [e]
      rfl
    obtain ⟨u, hu, hsame⟩ := ih (by rwa [hlstate])
    exact ⟨u, (execAll_cons hexec).trans hu, (hcanvas.setPixels pts).trans hsame⟩

theorem exec_fill_clear {s : State} (hl : s.lstate ≠ .hardwareReleased) :
    execAll [.fill .clear] s = .next (freeResult (complete (fillWith 0x00 (begin .fill s)))) :=
  execAll_cons (exec_fill hl (.inr rfl))

/-- The splash's instructions, run as operations, leave the canvas of the blit. -/
theorem execAll_splashInstrs (sp : Splash) (a : Asset) {s : State} (hl : s.lstate ≠ .hardwareReleased) :
    ∃ u, execAll (splashInstrs sp a) s = .next u ∧
      SameCanvas (blit sp a (if sp.clearsFirst then fillWith 0x00 s else s)) u := by
  rw [splashInstrs_eq, blit_eq_setPixels]
  split
  · rw [execAll_append (exec_fill_clear hl)]
    obtain ⟨u, hu, hsame⟩ := execAll_setPixels (splashPoints sp a)
      (s := freeResult (complete (fillWith 0x00 (begin .fill s)))) hl
    refine ⟨u, hu, SameCanvas.trans (SameCanvas.setPixels ?_ _) hsame⟩
    exact ⟨rfl, rfl, rfl, rfl⟩
  · exact execAll_setPixels (splashPoints sp a) hl

/-- What `drawInstrs` leaves is the canvas of step 16. -/
theorem execAll_drawInstrs {s : State} (hl : s.lstate ≠ .hardwareReleased) :
    ∃ u, execAll (drawInstrs s.par) s = .next u ∧ SameCanvas (clearOrSplash s) u := by
  unfold clearOrSplash
  cases hasset : splashAsset s.par with
  | none =>
    rw [drawInstrs_none hasset]
    exact ⟨_, exec_fill_clear hl, rfl, rfl, rfl, rfl⟩
  | some c =>
    rw [drawInstrs_some (sp := c.1) (a := c.2) hasset]
    exact execAll_splashInstrs c.1 c.2 hl

/-- INIT's own canvas after step 16 is the one its instructions draw. -/
theorem initDrawn_sameCanvas {s : State} (hl : s.lstate ≠ .hardwareReleased) : SameCanvas (drawnState s) (initDrawn s) := by
  obtain ⟨u, hu, hsame⟩ := execAll_drawInstrs (s := { s with rot := s.par.cfgRotation }) hl
  have hdrawn : initDrawn s = u := by
    unfold initDrawn
    rw [show execAll (drawInstrs s.par) { s with rot := s.par.cfgRotation } = .next u from hu]
  rw [hdrawn]
  have hconf : SameCanvas (configured s) { s with rot := s.par.cfgRotation } := ⟨rfl, rfl, rfl, rfl⟩
  exact hconf.clearOrSplash.trans hsame

theorem SameCanvas.isEmpty {s t : State} (h : SameCanvas s t) : isEmpty t = isEmpty s := by
  simp only [Machine.isEmpty, h.win]

theorem SameCanvas.flushEvents {s t : State} (h : SameCanvas s t) : flushEvents t = flushEvents s := by
  simp only [Machine.flushEvents, h.win, h.par, h.fb]

end Sys2Proof.Machine
end

section
/-! One step: whose turn it is, and what the agent finds (R26, R77, R81, R96, R98, R267). -/

namespace Sys2Proof.Machine

/-! ### Whose turn it is (log 7) -/

theorem fetch_of_fbp_turn {s : State} (h : s.turns.head? = some .fbp ∨ (s.turns = [] ∧ s.wire = [])) :
    fetch s = fetchHost (takeTurn s) := by
  rcases h with h | ⟨hturns, hwire⟩
  · obtain ⟨rest, hturns⟩ := List.head?_eq_some_iff.1 h
    exact fetch_fbp hturns
  · simp [fetch, nextAgent, hturns, hwire]

theorem fetch_of_controller_turn {s : State} (h : s.turns.head? = some .controller ∨ (s.turns = [] ∧ s.wire ≠ [])) :
    fetch s = fetchBus (takeTurn s) := by
  rcases h with h | ⟨hturns, hwire⟩
  · obtain ⟨rest, hturns⟩ := List.head?_eq_some_iff.1 h
    exact fetch_controller hturns
  · simp [fetch, nextAgent, hturns, hwire]

/-- The controller's turn, with something under way. -/
theorem fetch_of_wire {s : State} {txn : Txn} {rest : List Txn} (h : s.turns.head? = some .controller ∨ s.turns = [])
    (hwire : s.wire = txn :: rest) : fetch s = fetchBus (takeTurn s) :=
  fetch_of_controller_turn (h.imp_right fun hturns => ⟨hturns, by simp [hwire]⟩)

/-! ### FBP at its command port -/

theorem fetchHost_nil {s : State} (h : s.hostIn = []) : fetchHost s = .settled s := by
  simp [fetchHost, h]

theorem busy_eq_false {s : State} (h : s.seq.op = none) : busy s = false := by simp [busy, h]

theorem busy_eq_true {s : State} (h : s.seq.op ≠ none) : busy s = true := Option.isSome_iff_ne_none.2 h

theorem fetchHost_busy {s : State} {w : Word} {rest : List Word} (h : s.hostIn = w :: rest) (hb : busy s = true) :
    fetchHost s = .settled { s with hostIn := rest } := by
  simp [fetchHost, h, hb]

theorem fetchHost_ok {s : State} {w : Word} {rest : List Word} {i : Instr} (h : s.hostIn = w :: rest)
    (hb : busy s = false) (hd : decodeHost w = .ok i) : fetchHost s = .run i { s with hostIn := rest, opw := w } := by
  simp [fetchHost, h, hb, hd]

theorem fetchHost_error {s : State} {w : Word} {rest : List Word} {e : Reject} (h : s.hostIn = w :: rest)
    (hb : busy s = false) (hd : decodeHost w = .error e) : fetchHost s = .settled (refuse { s with hostIn := rest }) := by
  simp [fetchHost, h, hb, hd]

/-- Settles O57: FBP's turn, with a legal word at the port. -/
theorem stepRunsTheOperationPresented : Obligations.StepRunsTheOperationPresented := by
  intro s w rest i hin hidle hd hturn
  exact step_run ((fetch_of_fbp_turn hturn).trans (fetchHost_ok (s := takeTurn s) hin (busy_eq_false hidle) hd))

/-- Settles O59: FBP's turn without a word, BUSY, or with an illegal word. -/
theorem stepWithoutALegalWordChangesNothing : Obligations.StepWithoutALegalWordChangesNothing := by
  intro s hturn
  refine ⟨fun hin => ?_, fun w rest hin hbusy => ?_, fun w rest e hin hidle hd => ?_⟩
  · exact step_settled ((fetch_of_fbp_turn hturn).trans (fetchHost_nil (s := takeTurn s) hin))
  · exact step_settled ((fetch_of_fbp_turn hturn).trans (fetchHost_busy (s := takeTurn s) hin (busy_eq_true hbusy)))
  · exact ⟨_, step_settled ((fetch_of_fbp_turn hturn).trans
      (fetchHost_error (s := takeTurn s) hin (busy_eq_false hidle) hd)), sameButRefused_refuse _⟩

/-! ### The controller at its end of the bus -/

theorem fetchBus_nil {s : State} (h : s.wire = []) : fetchBus s = .settled s := by simp [fetchBus, h]

theorem fetchBus_lost {s : State} {txn : Txn} {rest : List Txn} (h : s.wire = txn :: rest) (hl : s.ctlLost = true) :
    fetchBus s = .settled (forgetController { s with wire := rest }) := by
  simp [fetchBus, h, hl]

theorem fetchBus_known {s : State} {txn : Txn} {rest : List Txn} (h : s.wire = txn :: rest) (hl : s.ctlLost = false) :
    fetchBus s = fetchTxn txn { s with wire := rest } := by
  simp [fetchBus, h, hl]

/-- The controller's turn, not lost and with something under way. -/
theorem fetch_txn {s : State} {txn : Txn} {rest : List Txn} (h : s.turns.head? = some .controller ∨ s.turns = [])
    (hwire : s.wire = txn :: rest) (hl : s.ctlLost = false) :
    fetch s = fetchTxn txn { s with turns := s.turns.tail, wire := rest } :=
  (fetch_of_wire h hwire).trans (fetchBus_known (s := takeTurn s) hwire hl)

theorem fetchTxn_ok {s : State} {c : Byte} {args left : List Byte} {i : Instr}
    (h : decodeBus s.par.cmds (c :: args) = .ok (i, left)) : fetchTxn (.cmd c args) s = .run i s := by
  simp [fetchTxn, h]

theorem fetchTxn_unknown {s : State} {c : Byte} {args : List Byte}
    (h : decodeBus s.par.cmds (c :: args) = .error .unknownByte) : fetchTxn (.cmd c args) s = .settled s := by
  simp [fetchTxn, h]

/-- A byte whose argument is missing is a command as soon as a byte follows. -/
theorem decodeBus_with_arg {cs : CmdSet} {c : Byte} {args : List Byte} (h : decodeBus cs (c :: args) = .error .argumentMissing)
    (arg : Byte) : ∃ i, decodeBus cs [c, arg] = .ok (i, []) := by
  unfold decodeBus at h ⊢
  cases hc : cmdOfByte cs c with
  | none => simp [hc] at h
  | some cmd =>
    cases ht : cmd.takesArg with
    | false => simp [hc, ht] at h
    | true => exact ⟨cmd.toInstr c arg, by simp [hc, ht]⟩

theorem fetchTxn_missing {s : State} {c : Byte} {args : List Byte}
    (h : decodeBus s.par.cmds (c :: args) = .error .argumentMissing) :
    ∃ arg i n, decodeBus s.par.cmds [c, arg] = .ok (i, []) ∧ fetchTxn (.cmd c args) s = .run i { s with freeIdx := n } := by
  obtain ⟨i, hi⟩ := decodeBus_with_arg h (Config.freeArg s.freeIdx)
  exact ⟨_, i, s.freeIdx + 1, hi, by simp [fetchTxn, h, hi]⟩

/-- Settles O58: the controller's turn, by what is first under way. -/
theorem stepRunsTheCommandOnTheBus : Obligations.StepRunsTheCommandOnTheBus := by
  intro s hturn
  refine ⟨fun c args rest hwire hl => ⟨fun i left hd => ?_, fun hd => ?_, fun hd => ?_⟩, fun txn rest hwire hl => ?_,
    fun hwire hhead => ?_⟩
  · exact step_run ((fetch_txn hturn hwire hl).trans (fetchTxn_ok hd))
  · obtain ⟨arg, i, n, hi, hrun⟩ := fetchTxn_missing (s := { s with turns := s.turns.tail, wire := rest }) hd
    exact ⟨arg, i, n, hi, step_run ((fetch_txn hturn hwire hl).trans hrun)⟩
  · exact step_settled ((fetch_txn hturn hwire hl).trans (fetchTxn_unknown hd))
  · exact ⟨_, step_settled ((fetch_of_wire hturn hwire).trans (fetchBus_lost (s := takeTurn s) hwire hl)), rfl⟩
  · exact step_settled ((fetch_of_controller_turn (.inl hhead)).trans (fetchBus_nil (s := takeTurn s) hwire))

/-! ### A table word placed (log 15) -/

theorem decodeTableWord_host {w : Nat} {i : Instr} (h : decodeTableWord 64 w = some i) :
    decodeHost (BitVec.ofNat 64 w) = .ok i := by
  unfold decodeTableWord at h
  cases hd : decodeHost (BitVec.ofNat 64 w) with
  | error e => simp [hd] at h
  | ok j => simpa [hd] using h

theorem decodeTableWord_bus {w : Nat} {i : Instr} (h : decodeTableWord 8 w = some i) :
    ∃ left, decodeBus cmdSetGK [BitVec.ofNat 8 w, BitVec.ofNat 8 (w / 256)] = .ok (i, left) := by
  unfold decodeTableWord at h
  cases hd : decodeBus cmdSetGK [BitVec.ofNat 8 w, BitVec.ofNat 8 (w / 256)] with
  | error e => simp [hd] at h
  | ok c => exact ⟨c.2, by simpa [hd, Prod.ext_iff] using h⟩

/-- The transaction placed for a controller row's word decodes to the row's instruction. -/
theorem fetchTxn_txnOfTableWord {s : State} (hcs : s.par.cmds = cmdSetGK) {w : Nat} {i : Instr}
    (h : decodeTableWord 8 w = some i) : fetchTxn (txnOfTableWord s.par.cmds w) s = .run i s := by
  obtain ⟨left, hd⟩ := decodeTableWord_bus h
  rw [← hcs] at hd
  unfold txnOfTableWord
  unfold decodeBus at hd
  cases hc : cmdOfByte s.par.cmds (BitVec.ofNat 8 w) with
  | none => simp [hc] at hd
  | some c =>
    cases ht : c.takesArg with
    | true => exact fetchTxn_ok (left := left) (by simpa [decodeBus, hc, ht] using hd)
    | false =>
      have hi : c.toInstr (BitVec.ofNat 8 w) 0 = i := by
        simp only [hc, ht, Bool.false_eq_true, if_false, Except.ok.injEq, Prod.mk.injEq] at hd
        exact hd.1
      exact fetchTxn_ok (left := []) (by simpa [decodeBus, hc, ht] using hi)

/-- Settles O60: the placed word is first at the port, or the placed transaction first on the wire. -/
theorem placedTableWordIsTheNextInstruction : Obligations.PlacedTableWordIsTheNextInstruction := by
  intro s w i
  refine ⟨fun h => ?_, fun hcs h => ?_⟩
  · exact step_run ((fetch_fbp (s := presentHost s w) rfl).trans
      (fetchHost_ok (s := takeTurn (presentHost s w)) rfl rfl (decodeTableWord_host h)))
  · exact step_run ((fetch_txn (s := presentBus s w) (.inl rfl) rfl rfl).trans
      (fetchTxn_txnOfTableWord (s := { s with ctlLost := false }) hcs h))

end Sys2Proof.Machine
end

section
/-! The controller: its commands, its data bursts, and what a flush leaves in its RAM (R74 to R83). -/

namespace Sys2Proof.Machine

/-! ### Commands -/

/-- The low nibble of a column pointer, replaced (R77). -/
theorem setLowNibble_toNat (cp : Byte) (f : BitVec 4) :
    ((cp &&& 0xF0) ||| f.zeroExtend 8).toNat = cp.toNat / 16 * 16 + f.toNat := by
  have happend : (cp &&& 0xF0) ||| f.zeroExtend 8 = cp.extractLsb' 4 4 ++ f := by
    refine BitVec.eq_of_getLsbD_eq fun i hi => Eq.trans ?_ BitVec.getLsbD_append.symm
    interval_cases i <;> simp
  have hf := f.isLt
  rw [happend, BitVec.toNat_append, BitVec.extractLsb'_toNat, ← Nat.shiftLeft_add_eq_or_of_lt hf, Nat.shiftLeft_eq,
    Nat.shiftRight_eq_div_pow]
  omega

/-- The high nibble of a column pointer, replaced (R77). -/
theorem setHighNibble_toNat (cp : Byte) (f : BitVec 4) :
    ((f.zeroExtend 8 <<< 4) ||| (cp &&& 0x0F)).toNat = f.toNat * 16 + cp.toNat % 16 := by
  have happend : (f.zeroExtend 8 <<< 4) ||| (cp &&& 0x0F) = f ++ cp.extractLsb' 0 4 := by
    refine BitVec.eq_of_getLsbD_eq fun i hi => Eq.trans ?_ BitVec.getLsbD_append.symm
    interval_cases i <;> simp
  have hlow : (cp.extractLsb' 0 4).toNat = cp.toNat % 16 := by simp [BitVec.extractLsb'_toNat]
  rw [happend, BitVec.toNat_append, ← Nat.shiftLeft_add_eq_or_of_lt (BitVec.isLt _), Nat.shiftLeft_eq, hlow]

theorem pagePointer_toNat (f : BitVec 4) : (f.extractLsb' 0 3).toNat = f.toNat % 8 := by
  simp [BitVec.extractLsb'_toNat]

/-- Settles O53: the values of the pointers that the three pointer commands write. -/
theorem pointerCommandsMoveThePointers : Obligations.PointerCommandsMoveThePointers := fun s f =>
  ⟨⟨_, pagePointer_toNat f, rfl⟩, ⟨_, setLowNibble_toNat s.ctl.cp f, rfl⟩, ⟨_, setHighNibble_toNat s.ctl.cp f, rfl⟩⟩

/-- Settles O54: each setting command is one write of its setting. -/
theorem settingCommandsMakeTheirSettingAlone : Obligations.SettingCommandsMakeTheirSettingAlone := fun _ _ _ =>
  ⟨rfl, rfl, rfl, rfl, rfl, rfl, rfl, rfl, rfl, rfl, rfl, rfl, rfl, rfl, rfl, rfl⟩

/-! ### Data bursts (R77) -/

/-- `c'` is `c` after the bytes were stored from its pointers on, as far as column 131. -/
structure Stored (bytes : List Byte) (c c' : Controller) : Prop where
  only : c' = { c with ram := c'.ram, cp := c'.cp }
  wf : c'.ram.wf
  stored : ∀ k v, bytes[k]? = some v → c.cp.toNat + k ≤ 131 →
    c'.ram.read (c.pp.toNat * 132 + (c.cp.toNat + k)) = v
  kept : ∀ a, (∀ k, k < bytes.length → c.cp.toNat + k ≤ 131 → a ≠ c.pp.toNat * 132 + (c.cp.toNat + k)) →
    c'.ram.read a = c.ram.read a
  cp : c'.cp.toNat = max c.cp.toNat (min (c.cp.toNat + bytes.length) 132)

/-- The controller with one more byte at its pointers. -/
def byteStored (b : Byte) (c : Controller) : Controller :=
  { c with ram := c.ram.write (c.pp.toNat * 132 + c.cp.toNat) b, cp := c.cp + 1 }

theorem storeByte_of_lt {c : Controller} (h : c.cp.toNat < 132) (b : Byte) : storeByte c b = byteStored b c :=
  if_pos h

theorem storeByte_of_ge {c : Controller} (h : ¬ c.cp.toNat < 132) (b : Byte) : storeByte c b = c := if_neg h

theorem byteStored_cp {c : Controller} (h : c.cp.toNat < 132) (b : Byte) : (byteStored b c).cp.toNat = c.cp.toNat + 1 := by
  rw [byteStored, BitVec.toNat_add]
  exact Nat.mod_eq_of_lt (by simp; omega)

theorem byteStored_read {c : Controller} (h : c.ram.wf) (b : Byte) (a : Nat) : (byteStored b c).ram.read a =
    if c.pp.toNat * 132 + c.cp.toNat = a then b else c.ram.read a := Memory.read_write h _ _ _

theorem storeBurst_stored (bytes : List Byte) {c : Controller} (h : c.ram.wf) : Stored bytes c (storeBurst bytes c) := by
  induction bytes generalizing c with
  | nil => exact ⟨rfl, h, by simp, fun _ _ => rfl, by simp [storeBurst]⟩
  | cons b bytes ih =>
    rw [storeBurst, List.foldl_cons, ← storeBurst]
    by_cases hc : c.cp.toNat < 132
    · rw [storeByte_of_lt hc]
      obtain ⟨honly, hwf, hstored, hkept, hcp⟩ := ih (c := byteStored b c) (Memory.write_wf h _ _)
      simp only [byteStored_cp hc, byteStored_read h, show (byteStored b c).pp = c.pp from rfl] at hstored hkept hcp
      refine ⟨honly, hwf, fun k v hk hle => ?_, fun a ha => ?_, ?_⟩
      · cases k with
        | zero =>
          obtain rfl : b = v := by simpa using hk
          rw [hkept _ fun k _ _ => by omega, if_pos (by omega)]
        | succ k =>
          rw [← hstored k v (by simpa using hk) (by omega)]
          congr 1
          omega
      · have hne := ha 0 (by simp) (by omega)
        rw [hkept a fun k hk hle => ?_, if_neg (by omega)]
        have hne := ha (k + 1) (by simpa using hk) (by omega)
        omega
      · rw [hcp, List.length_cons]
        omega
    · rw [storeByte_of_ge hc]
      obtain ⟨honly, hwf, hstored, hkept, hcp⟩ := ih h
      refine ⟨honly, hwf, fun k v _ hle => absurd hle (by omega), fun a _ => hkept a fun k _ hle => by omega, ?_⟩
      rw [hcp, List.length_cons]
      omega

/-- Settles O55: the burst is first on the wire at the controller's turn. -/
theorem dataBurstFillsConsecutiveColumns : Obligations.DataBurstFillsConsecutiveColumns := by
  intro s bytes rest hwf hl hturn hwire
  obtain ⟨honly, -, hstored, hkept, hcp⟩ := storeBurst_stored bytes hwf
  refine ⟨_, step_settled (fetch_txn hturn hwire hl), ?_, hstored, hkept, hcp⟩
  exact congrArg (fun c => { s with turns := s.turns.tail, wire := rest, ctl := c }) honly

/-! ### Runs -/

/-- A run that comes to a state took its first step. -/
theorem exists_step_of_coreRun {M : Host.Core} {k : Nat} {s t : M.State} (h : M.run (k + 1) s = .next t) :
    ∃ s', M.step s = .next s' ∧ M.run k s' = .next t := by
  rw [Host.Core.run] at h
  split at h
  · next s' hs => exact ⟨s', hs, h⟩
  · cases h
  · cases h

theorem coreRun_succ {M : Host.Core} {s t : M.State} (h : M.step s = .next t) (k : Nat) :
    M.run (k + 1) s = M.run k t := by
  rw [Host.Core.run, h]

theorem run_succ {s t : State} (h : step s = .next t) (k : Nat) : core.run (k + 1) s = core.run k t :=
  coreRun_succ (M := core) h k

theorem exists_step_of_run {k : Nat} {s t : State} (h : core.run (k + 1) s = .next t) :
    ∃ s', step s = .next s' ∧ core.run k s' = .next t :=
  exists_step_of_coreRun (M := core) h

theorem run_add {k : Nat} {s t : State} (h : core.run k s = .next t) (n : Nat) : core.run (k + n) s = core.run n t := by
  induction k generalizing s with
  | zero =>
    obtain rfl : s = t := by injection h
    rw [Nat.zero_add]
  | succ k ih =>
    obtain ⟨s', hs, hrun⟩ := exists_step_of_run h
    rw [Nat.add_right_comm, run_succ hs]
    exact ih hrun

/-! ### What the controller makes of a flush (R75, R83) -/

/-- `u` with these transactions under way and this controller. -/
def onBus (u : State) (txns : List Txn) (c : Controller) : State := { u with wire := txns, ctl := c }

/-- The column and page fields that a flush sends, as the fields of its commands. -/
theorem nibble_eq (v : Byte) : (v.extractLsb' 0 4).zeroExtend 8 &&& 0x0F = v &&& 0x0F := by
  ext i hi
  interval_cases i <;> simp

theorem encode_pageByte (p : Params) (k : Nat) :
    encode p.cmds (.cmdPageAddr ((BitVec.ofNat 8 (k + p.pageOffset.toNat)).extractLsb' 0 4)) = .bus [pageByte p k] :=
  congrArg (fun b => Code.bus [p.cmds.pageAddr ||| b]) (nibble_eq _)

theorem encode_lowColumnByte (p : Params) (col : Byte) :
    encode p.cmds (.cmdSetLowColumn (col.extractLsb' 0 4)) = .bus [lowColumnByte p col] :=
  congrArg (fun b => Code.bus [p.cmds.setLowColumn ||| b]) (nibble_eq _)

theorem encode_highColumnByte (p : Params) (col : Byte) :
    encode p.cmds (.cmdSetHighColumn ((col >>> 4).extractLsb' 0 4)) = .bus [highColumnByte p col] :=
  congrArg (fun b => Code.bus [p.cmds.setHighColumn ||| b]) (nibble_eq _)

/-- A controller whose pointers the three field commands have moved (R77). -/
def pointersMoved (page low high : BitVec 4) (c : Controller) : Controller :=
  { c with
    pp := page.extractLsb' 0 3
    cp := (high.zeroExtend 8 <<< 4) ||| (((c.cp &&& 0xF0) ||| low.zeroExtend 8) &&& 0x0F) }

theorem pointersMoved_cp (page low high : BitVec 4) (c : Controller) :
    (pointersMoved page low high c).cp.toNat = high.toNat * 16 + low.toNat := by
  have hlow := low.isLt
  rw [pointersMoved, setHighNibble_toNat, setLowNibble_toNat]
  omega

section

variable {u : State} (hturns : u.turns = []) (hlost : u.ctlLost = false)
include hturns hlost

theorem fetch_onBus (txn : Txn) (rest : List Txn) (c : Controller) :
    fetch (onBus u (txn :: rest) c) = fetchTxn txn (onBus u rest c) := by
  rw [fetch_txn (s := onBus u (txn :: rest) c) (.inr hturns) rfl hlost]
  congr 1
  simp [onBus, hturns]

/-- A one-byte command on the bus runs. -/
theorem step_onBus_cmd (hb : u.par.cmds.basesClear = true) (hu : u.par.cmds.unambiguous = true) {i : Instr} {b : Byte}
    (hi : encode u.par.cmds i = .bus [b]) (rest : List Txn) (c : Controller) :
    step (onBus u (.cmd b [] :: rest) c) = exec i (onBus u rest c) :=
  step_run ((fetch_onBus hturns hlost _ rest c).trans (fetchTxn_ok (decodeBus_encode hb hu hi)))

theorem step_onBus_data (bytes : List Byte) (rest : List Txn) (c : Controller) :
    step (onBus u (.data bytes :: rest) c) = .next (onBus u rest (storeBurst bytes c)) :=
  step_settled (fetch_onBus hturns hlost _ rest c)

/-- One page of a flush at the controller: the pointers go to the page and the column, and the burst is stored there. -/
theorem run_pageTxns (hb : u.par.cmds.basesClear = true) (hu : u.par.cmds.unambiguous = true) {p x : Nat}
    (hp : p + u.par.pageOffset.toNat < 8) (hx : x + u.par.colOffset.toNat < 256) (bytes : List Byte) (rest : List Txn)
    (c : Controller) :
    ∃ c', c'.ram = c.ram ∧ c'.pp.toNat = p + u.par.pageOffset.toNat ∧ c'.cp.toNat = x + u.par.colOffset.toNat ∧
      core.run 4 (onBus u (.cmd (pageByte u.par p) [] :: .cmd (lowColumnByte u.par (flushColumn u.par x)) [] ::
        .cmd (highColumnByte u.par (flushColumn u.par x)) [] :: .data bytes :: rest) c) =
        .next (onBus u rest (storeBurst bytes c')) := by
  refine ⟨pointersMoved ((BitVec.ofNat 8 (p + u.par.pageOffset.toNat)).extractLsb' 0 4)
    ((flushColumn u.par x).extractLsb' 0 4) ((flushColumn u.par x >>> 4).extractLsb' 0 4) c, rfl, ?_, ?_, ?_⟩
  · refine (pagePointer_toNat _).trans ?_
    simp only [BitVec.extractLsb'_toNat, BitVec.toNat_ofNat, Nat.shiftRight_zero]
    omega
  · rw [pointersMoved_cp]
    simp only [BitVec.extractLsb'_toNat, BitVec.toNat_ushiftRight, flushColumn, BitVec.toNat_ofNat,
      Nat.shiftRight_eq_div_pow]
    omega
  · exact (run_succ (step_onBus_cmd hturns hlost hb hu (encode_pageByte _ _) _ _) 3).trans
      ((run_succ (step_onBus_cmd hturns hlost hb hu (encode_lowColumnByte _ _) _ _) 2).trans
      ((run_succ (step_onBus_cmd hturns hlost hb hu (encode_highColumnByte _ _) _ _) 1).trans
      (run_succ (step_onBus_data hturns hlost bytes rest _) 0)))

end

/-- The transactions of one page of a flush, with its burst. -/
def pageTxns (par : Params) (x : Nat) (bytes : Nat → List Byte) (p : Nat) : List Txn :=
  [.cmd (pageByte par p) [], .cmd (lowColumnByte par (flushColumn par x)) [],
    .cmd (highColumnByte par (flushColumn par x)) [], .data (bytes p)]

theorem txnsOf_flatMap {α : Type} (l : List α) (f : α → List Event) :
    txnsOf (l.flatMap f) = l.flatMap fun a => txnsOf (f a) := by
  induction l with
  | nil => rfl
  | cons a l ih => rw [List.flatMap_cons, txnsOf_append, ih, List.flatMap_cons]

theorem txnsOf_flushEvents (s : State) :
    txnsOf (flushEvents s) = (flushPages s).flatMap (pageTxns s.par s.win.x1 (burst s)) := by
  rw [← flatMap_pageEvents, txnsOf_flatMap]
  rfl

/-- `ram'` is `ram` with the bursts of the pages `ps` stored, each from column `col` of its page, `off` pages further on. -/
structure PagesStored (off col : Nat) (bytes : Nat → List Byte) (ps : List Nat) (ram ram' : Memory) : Prop where
  stored : ∀ p ∈ ps, ∀ k v, (bytes p)[k]? = some v → ram'.read ((p + off) * 132 + (col + k)) = v
  kept : ∀ a, (∀ p ∈ ps, ∀ k < (bytes p).length, a ≠ (p + off) * 132 + (col + k)) → ram'.read a = ram.read a

/-- Another page in front: its burst is not overwritten by those of the other pages. -/
theorem PagesStored.cons {off col : Nat} {bytes : Nat → List Byte} (hfit : ∀ p, col + (bytes p).length ≤ 132) {p : Nat}
    {ps : List Nat} (hp : p ∉ ps) {c c' : Controller} {ram : Memory} (hc : Stored (bytes p) c c')
    (hpp : c.pp.toNat = p + off) (hcp : c.cp.toNat = col) (h : PagesStored off col bytes ps c'.ram ram) :
    PagesStored off col bytes (p :: ps) c.ram ram := by
  have hlen : ∀ {q k : Nat} {v : Byte}, (bytes q)[k]? = some v → k < (bytes q).length := fun h =>
    (List.getElem?_eq_some_iff.1 h).1
  obtain ⟨-, -, hstored, hkept, -⟩ := hc
  rw [hpp, hcp] at hstored hkept
  refine ⟨fun q hq k v hv => ?_, fun a ha => ?_⟩
  · rcases List.mem_cons.1 hq with rfl | hq
    · have hk := hlen hv
      have hq := hfit q
      rw [h.kept _ fun r hr j hj => ?_]
      · exact hstored k v hv (by omega)
      · have hne : r ≠ q := fun e => hp (e ▸ hr)
        have hr := hfit r
        omega
    · exact h.stored q hq k v hv
  · rw [h.kept a fun q hq => ha q (List.mem_cons_of_mem _ hq)]
    exact hkept a fun k hk _ => ha p List.mem_cons_self k hk

/-- The controller takes the pages of a flush one after the other. -/
theorem run_flushTxns {u : State} (hturns : u.turns = []) (hlost : u.ctlLost = false)
    (hb : u.par.cmds.basesClear = true) (hu : u.par.cmds.unambiguous = true) {x : Nat} {bytes : Nat → List Byte}
    (hx : x + u.par.colOffset.toNat < 256) (hfit : ∀ p, x + u.par.colOffset.toNat + (bytes p).length ≤ 132) {ps : List Nat}
    (hps : ∀ p ∈ ps, p + u.par.pageOffset.toNat < 8) (hnodup : ps.Nodup) {c : Controller} (hc : c.ram.wf) :
    ∃ c', core.run (4 * ps.length) (onBus u (ps.flatMap (pageTxns u.par x bytes)) c) = .next (onBus u [] c') ∧
      PagesStored u.par.pageOffset.toNat (x + u.par.colOffset.toNat) bytes ps c.ram c'.ram := by
  induction ps generalizing c with
  | nil => exact ⟨c, rfl, by simp, fun _ _ => rfl⟩
  | cons p ps ih =>
    obtain ⟨hp, hnodup⟩ := List.nodup_cons.1 hnodup
    obtain ⟨c', hram, hpp, hcp, hrun⟩ := run_pageTxns hturns hlost hb hu (hps p List.mem_cons_self) hx (bytes p)
      (ps.flatMap (pageTxns u.par x bytes)) c
    have hstored := storeBurst_stored (bytes p) (c := c') (by rwa [hram])
    obtain ⟨c'', hrun', hpages⟩ := ih (fun q hq => hps q (List.mem_cons_of_mem _ hq)) hnodup hstored.wf
    refine ⟨c'', ?_, hram ▸ hpages.cons hfit hp hstored hpp hcp⟩
    rw [List.length_cons, Nat.mul_succ, Nat.add_comm]
    exact (run_add hrun _).trans hrun'

theorem mem_flushPages {s : State} {p : Nat} : p ∈ flushPages s ↔ s.win.y1 / 8 ≤ p ∧ p ≤ s.win.y2 / 8 := by
  rw [flushPages_eq, List.mem_range'_1]
  omega

theorem burst_getElem? (s : State) {x p : Nat} (h1 : s.win.x1 ≤ x) (h2 : x ≤ s.win.x2) :
    (burst s p)[x - s.win.x1]? = some (s.fb.read (x + p * s.par.width)) := by
  rw [burst, List.getElem?_map, List.getElem?_range (by omega)]
  simp [show s.win.x1 + (x - s.win.x1) = x by omega]

theorem burst_length (s : State) (p : Nat) : (burst s p).length = s.win.x2 + 1 - s.win.x1 := by simp [burst]

/-- Settles O56: the flush's transactions at the controller, page after page. -/
theorem flushedWindowReachesTheControllerRam : Obligations.FlushedWindowReachesTheControllerRam := by
  intro s hinv hl hwin hfit hu hlost hwire hturns hok
  obtain ⟨hx1, hx2, hy1, hy2⟩ := id hwin
  simp only [Params.wellFitted, Params.inRange, Bool.and_eq_true, decide_eq_true_eq] at hfit
  obtain ⟨⟨⟨-, hb⟩, hcols⟩, hrows⟩ := hfit
  have hcompleted := (flushProc_sends_window hwin.isEmpty_eq_false).steady_completed (op := .flush)
    (legalBus_of_poweredOff_or_active hl) hok
  have hexec := exec_flush_of_fits hwin.windowFits
  generalize runOp .flush flushProc s = t at hcompleted hexec
  have ht : t = _ := hcompleted
  have hpar : t.par = s.par := by simpa using congrArg State.par ht
  have hbus : t = onBus t ((flushPages s).flatMap (pageTxns t.par s.win.x1 (burst s))) s.ctl := by
    have hctl : t.ctl = s.ctl := by simpa using congrArg State.ctl ht
    have hsent : t.wire = s.wire ++ txnsOf (flushEvents s) := congrArg State.wire ht
    rw [hwire, List.nil_append, txnsOf_flushEvents, ← hpar] at hsent
    rw [← hsent, ← hctl]
    rfl
  obtain ⟨c, hrun, hpages⟩ := run_flushTxns (u := t) (x := s.win.x1) (bytes := burst s) (ps := flushPages s)
    ((congrArg State.turns ht).trans hturns) ((congrArg State.ctlLost ht).trans hlost)
    (by rwa [hpar]) (by rwa [hpar]) (by rw [hpar]; omega) (fun p => by rw [hpar, burst_length]; omega)
    (fun p hp => by rw [mem_flushPages] at hp; rw [hpar]; omega) (by rw [flushPages_eq]; exact List.nodup_range') hinv.ram.1
  rw [← hbus] at hrun
  rw [hpar] at hpages
  have hlen : (flushPages s).length = s.win.y2 / 8 - s.win.y1 / 8 + 1 := by
    rw [flushPages_eq, List.length_range']
    omega
  rw [hlen] at hrun
  refine ⟨t, _, hexec, hrun, rfl, fun x p h1 h2 h3 h4 => ?_, fun a ha => ?_⟩
  · rw [← hpages.stored p (mem_flushPages.2 ⟨h3, h4⟩) _ _ (burst_getElem? s h1 h2)]
    congr 1
    omega
  · refine hpages.kept a fun p hp k hk => ?_
    rw [mem_flushPages] at hp
    rw [burst_length] at hk
    have hne := ha (s.win.x1 + k) p (by omega) (by omega) hp.1 hp.2
    omega

end Sys2Proof.Machine
end

section
/-! INIT as an operation: completed, and failed at a step (R233, R240 to R242, R248, R267). -/

namespace Sys2Proof.Machine

/-! ### What INIT starts from (R267) -/

/-- INIT starts from the state it finds but for a lost controller, of which nothing is known or under way. -/
theorem regainController_eq (s : State) : regainController s = { s with
    ctl := (regainController s).ctl, freeIdx := (regainController s).freeIdx, wire := if s.ctlLost then [] else s.wire
    ctlLost := false } := by
  rcases regainController_cases s with ⟨hl, e⟩ | ⟨hl, e⟩
  · rw [e, if_neg (by simp [hl]), ← hl]
  · rw [e, if_pos hl]
    rfl

theorem regainController_of_known {s : State} (h : s.ctlLost = false) : regainController s = s := by
  simp [regainController, h]

theorem regainController_ctlLost (s : State) : (regainController s).ctlLost = false := by rw [regainController_eq]

theorem regainController_begin (op : Op) (s : State) :
    regainController (begin op s) = { regainController s with seq := (begin op s).seq } := by
  cases h : s.ctlLost <;> simp only [regainController, begin_ctlLost, h] <;> rfl

theorem regainController_sameCanvas (s : State) : SameCanvas s (regainController s) := by
  rw [regainController_eq]
  exact ⟨rfl, rfl, rfl, rfl⟩

theorem SameCanvas.symm {s t : State} (h : SameCanvas s t) : SameCanvas t s :=
  ⟨h.par.symm, h.rot.symm, h.fb.symm, h.win.symm⟩

theorem SameCanvas.drawnState {s t : State} (h : SameCanvas s t) : SameCanvas (drawnState s) (drawnState t) :=
  SameCanvas.clearOrSplash ⟨h.par, congrArg Params.cfgRotation h.par, h.fb, h.win⟩

/-- The canvas that INIT's step 16 leaves is the one its instructions draw. -/
theorem initDrawn_canvas {s : State} (hl : s.lstate ≠ .hardwareReleased) :
    SameCanvas (initDrawn s) (drawnState (regainController s)) :=
  (initDrawn_sameCanvas hl).symm.trans (regainController_sameCanvas s).drawnState

/-- The events of INIT are those of its table. -/
theorem initSteps_eq {s : State} (hl : s.lstate ≠ .hardwareReleased) :
    initSteps s = tableSteps 0 initTable (regainController s) := by
  have hcanvas := initDrawn_canvas hl
  rw [tableSteps_initTable, initSteps, (regainController_sameCanvas s).par, hcanvas.isEmpty, hcanvas.flushEvents]

/-! ### The window of step 16 -/

theorem setPixel_windowOk {s : State} (h : WindowOk s) (x y : Int) (mode : Mode) : WindowOk (setPixel x y mode s) := by
  unfold setPixel
  split
  · next hin =>
    obtain ⟨hx, hy⟩ := physical_lt hin
    exact expand_windowOk (s := { s with fb := _ }) h le_rfl hx le_rfl hy
  · exact h

theorem fillWith_windowOk {s : State} (h : WindowOk s) (hw : 1 ≤ s.par.width) (hh : 1 ≤ s.par.height) (v : Byte) :
    WindowOk (fillWith v s) :=
  expand_windowOk (s := { s with fb := _ }) h (Nat.zero_le _) (by simp; omega) (Nat.zero_le _) (by simp; omega)

theorem setPixels_windowOk {s : State} (h : WindowOk s) (pts : List (Int × Int)) : WindowOk (setPixels pts s) := by
  induction pts generalizing s with
  | nil => exact h
  | cons p pts ih => exact ih (setPixel_windowOk h p.1 p.2 .set)

theorem clearOrSplash_windowOk {s : State} (h : WindowOk s) (hw : 1 ≤ s.par.width) (hh : 1 ≤ s.par.height) :
    WindowOk (clearOrSplash s) := by
  unfold clearOrSplash
  split
  · exact fillWith_windowOk h hw hh _
  · rw [blit_eq_setPixels]
    refine setPixels_windowOk ?_ _
    split
    · exact fillWith_windowOk h hw hh _
    · exact h

/-- With the window in order a flush, and nothing to flush, leave the empty window. -/
theorem flushed_of_windowOk {s : State} (h : WindowOk s) : flushed s = dirtyReset s := by
  unfold flushed
  rcases h with h | h
  · rw [dirtyReset, ← show s.win = _ from h, ite_self]
  · rw [h.isEmpty_eq_false]
    rfl

theorem inRange_size {p : Params} (h : p.inRange = true) : 1 ≤ p.width ∧ 1 ≤ p.height := by
  simp only [Params.inRange, Bool.and_eq_true, decide_eq_true_eq] at h
  obtain ⟨⟨⟨⟨⟨⟨hw, -⟩, hh⟩, -⟩, -⟩, -⟩, -⟩ := h
  exact ⟨hw, hh⟩

/-! ### The two ends of INIT -/

/-- The start of a script of a table comes from the start of its events. -/
theorem tableScript_eq_append {table : List InitAction} {r u : State} {pre post : List (State × Event)} {e : Event}
    (h : tableScript 0 table r = pre ++ (u, e) :: post) :
    ∃ pre' k post', tableSteps 0 table r = pre' ++ (k, e) :: post' ∧ eventsOf pre = pre'.map Prod.snd ∧
      u = tableAt table r k := by
  obtain ⟨pre', tail, hsteps, rfl, htail⟩ := List.map_eq_append_iff.1 h
  obtain ⟨c, post', rfl, hc, -⟩ := List.map_eq_cons_iff.1 htail
  obtain ⟨rfl, rfl⟩ := Prod.mk.inj hc
  refine ⟨pre', c.1, post', hsteps, ?_, rfl⟩
  rw [eventsOf, List.map_map]
  rfl

section

variable {s : State} (hl : s.lstate ≠ .hardwareReleased)
include hl

/-- INIT runs its table from the controller it regains: it completes, or it stops at the first failing transaction with
the registers of that transaction's step, the controller lost (R233, R242). -/
theorem runOp_init_cases :
    (answersOk s (initEvents s) = true ∧ ∃ q, runOp .init initProc s =
      freeResult (complete (sent (tableMade initTable (regainController s)) (initEvents s) q))) ∨
    ∃ pre k x post, initSteps s = pre ++ (k, .bus x .ok) :: post ∧ answersOk s (pre.map Prod.snd) = true ∧
      answerOf (after s (pre.map Prod.snd)) x = .fail ∧ runOp .init initProc s =
      freeResult (loseController (raiseTransportError (recordFail x
        (sent (tableAt initTable (regainController s) k) (pre.map Prod.snd) (regainController s).seq)))) := by
  have hsends := runInit_sends 0 initTable (regainController s)
  have htrace : (regainController s).trace = s.trace := by rw [regainController_eq]
  have hanswers : (regainController s).answers = s.answers := by rw [regainController_eq]
  have hrun : runOp .init initProc s =
      finish ((runInit 0 initTable { regainController s with seq := (begin .init s).seq }).onRaised loseController) := by
    rw [runOp_legal (op := .init) (legalBuffer_of_ne hl), initProc, regainController_begin]
  rw [hrun, initEvents, initSteps_eq hl]
  rcases hsends.ends (begin .init s).seq with ⟨hok, q, e⟩ | ⟨pre, u, x, post, hscr, hok, hfail, e⟩
  · rw [eventsOf_tableScript] at hok e
    rw [answersOk_congr htrace hanswers] at hok
    exact .inl ⟨hok, q, by rw [e]; rfl⟩
  · have hallOk : AllOk (eventsOf pre) := AllOk.of_append_left (evs' := .bus x .ok :: eventsOf post) (by
      simpa [hscr] using hsends.allOk)
    obtain ⟨pre', k, post', hsteps, hpre, rfl⟩ := tableScript_eq_append hscr
    rw [hpre] at hok hfail e hallOk
    rw [answersOk_congr htrace hanswers] at hok
    rw [after_eq_sent hallOk, answerOf_congr (s := sent s (pre'.map Prod.snd) s.seq) (by simp [sent, htrace])
      (by simp [sent, hanswers]), ← after_eq_sent hallOk] at hfail
    exact .inr ⟨pre', k, x, post', hsteps, hok, hfail, by rw [e]; rfl⟩

end

/-- INIT of a window on the panel runs as an operation. -/
theorem exec_init_of_fits {s : State} (h : windowFits s = true) : exec .init s = .next (runOp .init initProc s) :=
  if_neg (by simp [initLeavesPanel, h])

theorem WindowOk.windowFits {s : State} (h : WindowOk s) (hw : 1 ≤ s.par.width) (hh : 1 ≤ s.par.height) :
    windowFits s = true := by
  rcases h with h | h
  · rw [Machine.windowFits, show s.win = _ from h]
    simp only [Bool.and_eq_true, decide_eq_true_eq]
    omega
  · exact h.windowFits

/-! ### The registers INIT writes -/

theorem drawnState_eq (s : State) :
    drawnState s = { configured s with fb := (drawnState s).fb, win := (drawnState s).win } := by
  obtain ⟨m, w, e⟩ := clearOrSplash_drawsOnly (configured s)
  rw [drawnState, e]

/-- What a whole INIT leaves (R234 to R241). -/
theorem initMade_eq {s : State} (hl : s.lstate ≠ .hardwareReleased) (hrange : s.par.inRange = true) (hwin : WindowOk s) :
    tableMade initTable (regainController s) = { regainController s with
      lstate := .active, muxratio := BitVec.ofNat 8 (s.par.height - 1)
      compins := (profile s.par.width s.par.height).1, contrast := (profile s.par.width s.par.height).2
      inv := false, rot := s.par.cfgRotation, fb := (initDrawn s).fb
      win := { x1 := s.par.width, y1 := s.par.height, x2 := 0, y2 := 0 } } := by
  obtain ⟨hw, hh⟩ := inRange_size hrange
  have hcanvas := initDrawn_canvas hl
  have hok : WindowOk (drawnState (regainController s)) := by
    rw [regainController_eq]
    exact clearOrSplash_windowOk hwin hw hh
  rw [tableMade_initTable, flushed_of_windowOk hok, dirtyReset, drawnState_eq, hcanvas.fb]
  simp only [configured, (regainController_sameCanvas s).par]

/-- Settles O50: INIT's table, with every transaction answered `ok`. -/
theorem initRunsItsTable : Obligations.InitRunsItsTable := by
  intro s hl hrange hwin hok
  obtain ⟨hw, hh⟩ := inRange_size hrange
  rcases runOp_init_cases hl with ⟨-, q, e⟩ | ⟨pre, k, x, post, hsteps, -, hfail, -⟩
  · rw [initMade_eq hl hrange hwin] at e
    refine ⟨_, (exec_init_of_fits (hwin.windowFits hw hh)).trans (congrArg _ e), fun h => ?_, ?_⟩
    · rw [regainController_of_known h]
      rfl
    · rw [regainController_eq]
      exact completedBus_sent _ _ _
  · rw [initEvents, hsteps, List.map_append, List.map_cons] at hok
    exact absurd hfail (not_failed_before hok)

/-! ### The registers at a step -/

/-- The actions that ask for transactions. -/
def InitAction.sends : InitAction → Bool
  | .command _ _ _ | .startLine | .flush => true
  | .lifecycle _ | .applyRotation | .clearOrSplash => false

theorem sends_of_mem_actionEvents {a : InitAction} {s : State} {e : Event} (h : e ∈ actionEvents a s) : a.sends = true := by
  cases a with
  | command w c args => rfl
  | startLine => rfl
  | flush => rfl
  | lifecycle l => simp [actionEvents] at h
  | applyRotation => simp [actionEvents] at h
  | clearOrSplash => simp [actionEvents] at h

/-- A transaction of step `k` comes from the table's action `k`. -/
theorem sends_of_mem_tableSteps {n k : Nat} {table : List InitAction} {s : State} {x : Txn} {r : Answer}
    (h : (k, Event.bus x r) ∈ tableSteps n table s) : n ≤ k ∧ (table[k - n]?).any InitAction.sends = true := by
  induction table generalizing n s with
  | nil => simp [tableSteps] at h
  | cons a rest ih =>
    rcases List.mem_append.1 h with h | h
    · obtain rfl : k = n := step_of_mem_initStepEvents h
      obtain ⟨e, he, heq⟩ := List.mem_map.1 h
      obtain rfl : e = .bus x r := congrArg Prod.snd heq
      have hmem : Event.bus x r ∈ actionEvents a s := (List.mem_append.1 he).elim id fun hd => by
        split at hd <;> simp at hd
      simpa using sends_of_mem_actionEvents hmem
    · obtain ⟨hle, hany⟩ := ih h
      refine ⟨by omega, ?_⟩
      rwa [show k - n = k - (n + 1) + 1 by omega, List.getElem?_cons_succ]

theorem step_of_sends {k : Nat} (h : (initTable[k]?).any InitAction.sends = true) :
    (1 ≤ k ∧ k ≤ 14) ∨ (17 ≤ k ∧ k ≤ 19) := by
  have hlt : k < 21 := by
    by_contra hge
    rw [List.getElem?_eq_none (by simpa [initTable] using hge)] at h
    cases h
  revert h
  have hall : ∀ k < 21, (initTable[k]?).any InitAction.sends = true → (1 ≤ k ∧ k ≤ 14) ∨ (17 ≤ k ∧ k ≤ 19) := by decide
  exact hall k hlt

theorem tableAt_append_right (table table' : List InitAction) (s : State) (j : Nat) :
    tableAt (table ++ table') s (table.length + j) = tableAt table' (tableMade table s) j := by
  induction table generalizing s with
  | nil => rw [List.nil_append, List.length_nil, Nat.zero_add]; rfl
  | cons a rest ih =>
    rw [List.cons_append, List.length_cons, Nat.add_right_comm, tableAt, ih]
    rfl

/-- Steps 1 to 14 configure (R234, R236, R238). -/
theorem tableAt_config (r : State) {k : Nat} (h1 : 1 ≤ k) (h14 : k ≤ 14) : tableAt initTable r k = { r with
    lstate := .poweredOff
    muxratio := if 3 ≤ k then BitVec.ofNat 8 (r.par.height - 1) else r.muxratio
    compins := if 9 ≤ k then (profile r.par.width r.par.height).1 else r.compins
    contrast := if 9 ≤ k then (profile r.par.width r.par.height).2 else r.contrast
    inv := if 14 ≤ k then false else r.inv } := by
  interval_cases k <;> simp [tableAt, initTable, actionMade, actionDuring, initWrite]

/-- Step 17 flushes what step 16 drew. -/
theorem tableAt_flush (r : State) : tableAt initTable r 17 = drawnState r := by
  have happend := tableAt_append_right initConfigTable (.flush :: initPowerTable) r 0
  rw [tableMade_config] at happend
  exact happend

/-- Steps 18 and 19 write nothing. -/
theorem tableAt_power (r : State) {k : Nat} (h18 : 18 ≤ k) (h19 : k ≤ 19) :
    tableAt initTable r k = flushed (drawnState r) := by
  have happend := tableAt_append_right initConfigTable (.flush :: initPowerTable) r (k - 17)
  rw [tableMade_config] at happend
  obtain rfl | rfl : k = 18 ∨ k = 19 := by omega
  · exact happend
  · exact happend

/-- The registers while step `k` sends, by the steps before it (R242). -/
theorem tableAt_initTable (r : State) {k : Nat} (hk : (1 ≤ k ∧ k ≤ 14) ∨ (17 ≤ k ∧ k ≤ 19)) :
    tableAt initTable r k = { r with
      lstate := .poweredOff
      muxratio := if 3 ≤ k then BitVec.ofNat 8 (r.par.height - 1) else r.muxratio
      compins := if 9 ≤ k then (profile r.par.width r.par.height).1 else r.compins
      contrast := if 9 ≤ k then (profile r.par.width r.par.height).2 else r.contrast
      inv := if 14 ≤ k then false else r.inv
      rot := if 17 ≤ k then r.par.cfgRotation else r.rot
      fb := if 17 ≤ k then (drawnState r).fb else r.fb
      win := if 18 ≤ k then (flushed (drawnState r)).win else if k = 17 then (drawnState r).win else r.win } := by
  rcases hk with ⟨h1, h14⟩ | ⟨h17, h19⟩
  · rw [tableAt_config r h1 h14]
    simp [show ¬ 17 ≤ k by omega, show ¬ 18 ≤ k by omega, show k ≠ 17 by omega]
  · have hflushed : flushed (drawnState r) = { drawnState r with win := (flushed (drawnState r)).win } := by
      unfold flushed
      split <;> rfl
    obtain rfl | h18 : k = 17 ∨ 18 ≤ k := by omega
    · rw [tableAt_flush, drawnState_eq]
      rfl
    · rw [tableAt_power r h18 h19, hflushed, drawnState_eq]
      simp [configured, h17, h18, show 3 ≤ k by omega, show 9 ≤ k by omega, show 14 ≤ k by omega]

/-- Where the failing transaction of INIT is, it is the one INIT stops at. -/
theorem initSteps_failure_unique {s : State} {pre pre' post post' : List (Nat × Event)} {k k' : Nat} {x x' : Txn}
    (h : pre ++ (k, .bus x .ok) :: post = pre' ++ (k', .bus x' .ok) :: post')
    (hok : answersOk s (pre.map Prod.snd) = true) (hok' : answersOk s (pre'.map Prod.snd) = true)
    (hfail : answerOf (after s (pre.map Prod.snd)) x = .fail)
    (hfail' : answerOf (after s (pre'.map Prod.snd)) x' = .fail) : pre = pre' ∧ k = k' ∧ x = x' := by
  have hevents := congrArg (List.map Prod.snd) h
  rw [List.map_append, List.map_append, List.map_cons, List.map_cons] at hevents
  have hlength : pre.length = pre'.length := by
    simpa using congrArg List.length (first_failure_unique hevents hok hok' hfail hfail')
  obtain ⟨hpre, htail⟩ := List.append_inj h hlength
  obtain ⟨hhead, -⟩ := List.cons.inj htail
  simp only [Prod.mk.injEq, Event.bus.injEq] at hhead
  exact ⟨hpre, hhead.1, hhead.2.1⟩

/-- A transaction of INIT is of step 1 to 14 or of step 17 to 19. -/
theorem step_of_initSteps {s : State} (hl : s.lstate ≠ .hardwareReleased) {pre post : List (Nat × Event)} {k : Nat}
    {x : Txn} (h : initSteps s = pre ++ (k, .bus x .ok) :: post) : (1 ≤ k ∧ k ≤ 14) ∨ (17 ≤ k ∧ k ≤ 19) := by
  have hmem : (k, Event.bus x .ok) ∈ tableSteps 0 initTable (regainController s) := by
    rw [← initSteps_eq hl, h]
    exact List.mem_append_right _ List.mem_cons_self
  exact step_of_sends (sends_of_mem_tableSteps hmem).2

/-- What INIT has written when step `k` fails (R242, R266). -/
theorem initAt_eq {s : State} (hl : s.lstate ≠ .hardwareReleased) (hrange : s.par.inRange = true) (hwin : WindowOk s)
    {k : Nat} (hk : (1 ≤ k ∧ k ≤ 14) ∨ (17 ≤ k ∧ k ≤ 19)) :
    tableAt initTable (regainController s) k = { regainController s with
      lstate := .poweredOff
      muxratio := if 3 ≤ k then BitVec.ofNat 8 (s.par.height - 1) else s.muxratio
      compins := if 9 ≤ k then (profile s.par.width s.par.height).1 else s.compins
      contrast := if 9 ≤ k then (profile s.par.width s.par.height).2 else s.contrast
      inv := if 14 ≤ k then false else s.inv
      rot := if 17 ≤ k then s.par.cfgRotation else s.rot
      fb := if 17 ≤ k then (initDrawn s).fb else s.fb
      win := if 18 ≤ k then { x1 := s.par.width, y1 := s.par.height, x2 := 0, y2 := 0 }
        else if k = 17 then (initDrawn s).win else s.win } := by
  obtain ⟨hw, hh⟩ := inRange_size hrange
  have hcanvas := initDrawn_canvas hl
  have hok : WindowOk (drawnState (regainController s)) := by
    rw [regainController_eq]
    exact clearOrSplash_windowOk hwin hw hh
  rw [tableAt_initTable _ hk, flushed_of_windowOk hok, hcanvas.fb, hcanvas.win, dirtyReset_win, drawnState_par,
    regainController_eq]

/-- Settles O51: INIT stops at step `k` with the registers of that step. -/
theorem failedInitLeavesTheTabledState : Obligations.FailedInitLeavesTheTabledState := by
  intro s pre k x hl hrange hwin hpre hok hfail
  obtain ⟨hw, hh⟩ := inRange_size hrange
  obtain ⟨post, hpost⟩ := hpre
  rw [List.append_assoc, List.singleton_append] at hpost
  rcases runOp_init_cases hl with ⟨hall, -⟩ | ⟨pre', k', x', post', hsteps, hok', hfail', e⟩
  · rw [initEvents, ← hpost, List.map_append, List.map_cons] at hall
    exact absurd hfail (not_failed_before hall)
  · obtain ⟨rfl, rfl, rfl⟩ := initSteps_failure_unique (hpost.trans hsteps) hok hok' hfail hfail'
    rw [initAt_eq hl hrange hwin (step_of_initSteps hl hsteps), regainController_eq] at e
    refine ⟨_, (exec_init_of_fits (hwin.windowFits hw hh)).trans (congrArg _ e), ?_⟩
    rw [← List.tail_drop]
    rfl

end Sys2Proof.Machine
end

section
/-! What INIT draws and sends, with a splash asset and without (R240, R241, R248). -/

namespace Sys2Proof.Machine

/-! ### An INIT that ran -/

/-- INIT outside `HardwareReleased`, from a window in order, by how it ended. -/
theorem exec_init_cases {s t : State} (hl : s.lstate ≠ .hardwareReleased) (hrange : s.par.inRange = true)
    (hwin : WindowOk s) (h : exec .init s = .next t) :
    (t.status = .ok ∧ t.fb = (initDrawn s).fb ∧ t.trace = s.trace ++ initEvents s) ∨
    ∃ pre k x post, initSteps s = pre ++ (k, .bus x .ok) :: post ∧ t.status = .transportError ∧
      t.trace = s.trace ++ pre.map Prod.snd ++ [.bus x .fail] ∧
      (k = 17 → t.fb = (initDrawn s).fb ∧ t.win = (initDrawn s).win) := by
  obtain ⟨hw, hh⟩ := inRange_size hrange
  rw [exec_init_of_fits (hwin.windowFits hw hh)] at h
  obtain rfl : runOp .init initProc s = t := by injection h
  rcases runOp_init_cases hl with ⟨-, q, e⟩ | ⟨pre, k, x, post, hsteps, -, -, e⟩
  · rw [initMade_eq hl hrange hwin, regainController_eq] at e
    rw [e]
    exact .inl ⟨rfl, rfl, rfl⟩
  · rw [initAt_eq hl hrange hwin (step_of_initSteps hl hsteps), regainController_eq] at e
    rw [e]
    refine .inr ⟨pre, k, x, post, hsteps, rfl, rfl, ?_⟩
    rintro rfl
    exact ⟨rfl, rfl⟩

theorem initEvents_allOk {s : State} (hl : s.lstate ≠ .hardwareReleased) : AllOk (initEvents s) := by
  rw [initEvents, initSteps_eq hl, ← eventsOf_tableScript]
  exact (runInit_sends 0 initTable (regainController s)).allOk

/-- The canvas that INIT draws is what its instructions leave. -/
theorem initDrawn_of_execAll {s u : State} (h : execAll (drawInstrs s.par) { s with rot := s.par.cfgRotation } = .next u) :
    initDrawn s = u := by
  rw [initDrawn, h]

/-! ### Without an asset -/

theorem splashAsset_of_noSplashAsset {p : Params} (h : NoSplashAsset p) : splashAsset p = none := by
  unfold splashAsset
  rcases h with h | h | ⟨sp, h, hbelow, habove⟩
  · simp [h]
  · simp [h]
  · rw [h]
    by_cases hheight : p.height < sp.threshold
    · simp [hheight, hbelow hheight]
    · simp [hheight, habove (Nat.not_lt.1 hheight)]

/-- What INIT draws without an asset: FILL CLEAR (R240). -/
theorem initDrawn_of_noSplashAsset {s : State} (hl : s.lstate ≠ .hardwareReleased) (h : NoSplashAsset s.par) :
    SameCanvas (fillWith 0x00 { s with rot := s.par.cfgRotation }) (initDrawn s) := by
  obtain ⟨u, hu, hcanvas⟩ := execAll_drawInstrs (s := { s with rot := s.par.cfgRotation }) hl
  rw [clearOrSplash, show splashAsset _ = none from splashAsset_of_noSplashAsset h] at hcanvas
  rwa [initDrawn_of_execAll (s := s) hu]

/-- The flush of a zeroed panel, all of it dirty (R241). -/
theorem flushEvents_of_zeroed {s : State} (hw : 1 ≤ s.par.width) (hh : 1 ≤ s.par.height)
    (hwin : s.win = { x1 := 0, y1 := 0, x2 := s.par.width - 1, y2 := s.par.height - 1 })
    (hzero : ∀ a < s.par.width * ((s.par.height + 7) / 8), s.fb.read a = 0) : flushEvents s = zeroPanelEvents s.par := by
  have hbytes : ∀ p, p < (s.par.height + 7) / 8 →
      (List.range (s.par.width - 1 + 1 - 0)).map (fun x => s.fb.read (x + p * s.par.width)) =
        List.replicate s.par.width 0 := fun p hp => by
    refine List.eq_replicate_iff.2 ⟨by simp; omega, fun b hb => ?_⟩
    obtain ⟨x, hx, rfl⟩ := List.mem_map.1 hb
    rw [List.mem_range] at hx
    have hle := Nat.mul_le_mul_right s.par.width (show p + 1 ≤ (s.par.height + 7) / 8 by omega)
    rw [Nat.add_mul, Nat.one_mul, Nat.mul_comm ((s.par.height + 7) / 8)] at hle
    exact hzero _ (by omega)
  have hcol : (0 + s.par.colOffset.toNat) % 256 = s.par.colOffset.toNat := by
    have := s.par.colOffset.isLt
    omega
  rw [flushEvents, zeroPanelEvents, hwin]
  simp only [Nat.zero_div, ← List.range_eq_range', hcol]
  rw [show (s.par.height - 1) / 8 + 1 - 0 = (s.par.height + 7) / 8 by omega]
  refine List.flatMap_congr fun p hp => ?_
  rw [hbytes p (List.mem_range.1 hp)]

/-- Settles O52: step 16 clears, so step 17 flushes a zeroed panel. -/
theorem noSplashInitSendsAZeroedPanel : Obligations.NoSplashInitSendsAZeroedPanel := by
  intro s t hl hrange hwin hno hexec hstatus
  obtain ⟨hw, hh⟩ := inRange_size hrange
  rcases exec_init_cases hl hrange hwin hexec with ⟨-, hfb, htrace⟩ | ⟨_, _, _, _, -, herror, -⟩
  · have hcanvas := initDrawn_of_noSplashAsset hl hno
    have hpar : (initDrawn s).par = s.par := hcanvas.par
    have hwindow : (initDrawn s).win = { x1 := 0, y1 := 0, x2 := s.par.width - 1, y2 := s.par.height - 1 } :=
      hcanvas.win.trans (fillWith_window (s := { s with rot := s.par.cfgRotation }) hwin hw hh 0x00)
    have hzero : ∀ a < s.par.width * ((s.par.height + 7) / 8), (initDrawn s).fb.read a = 0 := fun a ha => by
      rw [hcanvas.fb]
      exact (Memory.read_fill _ _ _ a).trans (if_pos ha)
    have hdirty : isEmpty (initDrawn s) = false := by
      rw [Machine.isEmpty, hwindow]
      rfl
    have hflush : flushEvents (initDrawn s) = zeroPanelEvents s.par := by
      rw [← hpar] at hw hh hwindow ⊢
      exact flushEvents_of_zeroed hw hh hwindow (by rwa [hpar])
    refine ⟨fun a ha => hfb ▸ hzero a ha, ?_⟩
    rw [htrace, initEvents, initSteps, hdirty, hflush]
    rfl
  · rw [herror] at hstatus
    cases hstatus

/-! ### With an asset -/

theorem splashAsset_of_splashAssetIs {p : Params} {sp : Splash} {a : Asset} (h : SplashAssetIs p sp a) :
    splashAsset p = some (sp, a) := by
  obtain ⟨hno, hsp, hbelow, habove⟩ := h
  unfold splashAsset
  rw [hsp, hno]
  by_cases hheight : p.height < sp.threshold
  · simp [hheight, hbelow hheight]
  · simp [hheight, habove (Nat.not_lt.1 hheight)]

/-- The blit draws the images of its points. -/
theorem setPixels_drawn (pts : List (Int × Int)) {s : State} (hm : s.fb.wf) :
    Drawn .set (fun px py => ∃ p ∈ pts, imagePixel s p.1 p.2 px py) s (setPixels pts s) := by
  induction pts generalizing s with
  | nil => exact .none hm fun px py => by simp
  | cons p pts ih =>
    have hfirst := setPixel_drawn hm p.1 p.2 .set
    have hrest := ih hfirst.fb.wf
    have himage : ∀ x y, imagePixel (setPixel p.1 p.2 .set s) x y = imagePixel s x y := fun x y => by
      unfold imagePixel panelPixels
      rw [hfirst.par, hfirst.rot]
    simp only [himage] at hrest
    refine (hfirst.union hrest fun _ _ _ _ => by decide).congr fun px py => ?_
    simp only [List.mem_cons, exists_eq_or_imp]

theorem mem_splashPoints {sp : Splash} {a : Asset} {p : Int × Int} : p ∈ splashPoints sp a ↔
    ∃ i j : Nat, i < a.w ∧ j < a.h ∧ a.bits.getD (j * a.w + i) false = true ∧ p = (sp.x0 + i, sp.y0 + j) := by
  simp only [splashPoints, assetPixels, List.mem_map, List.mem_flatMap, List.mem_filter, List.mem_range]
  constructor
  · rintro ⟨_, ⟨j, hj, i, ⟨hi, hbit⟩, rfl⟩, rfl⟩
    exact ⟨i, j, hi, hj, hbit, rfl⟩
  · rintro ⟨i, j, hi, hj, hbit, rfl⟩
    exact ⟨_, ⟨j, hj, i, ⟨hi, hbit⟩, rfl⟩, rfl⟩

theorem SameCanvas.pixel {s t : State} (h : SameCanvas s t) (px py : Nat) : pixel t px py = pixel s px py := by
  unfold Machine.pixel fbBit
  rw [h.fb, h.par]

/-- A pixel is on after the blit where a 1 bit fell on it, or where it was on and the splash does not clear. -/
theorem pixel_blit {s : State} (hm : s.fb.wf) (sp : Splash) (a : Asset) {px py : Nat} (hx : px < s.par.width)
    (hy : py < s.par.height) :
    pixel (blit sp a (if sp.clearsFirst then fillWith 0x00 s else s)) px py = true ↔
      (∃ i j : Nat, i < a.w ∧ j < a.h ∧ a.bits.getD (j * a.w + i) false = true ∧
        xform s.par.width s.par.height s.rot (sp.x0 + i) (sp.y0 + j) = ((px : Int), (py : Int))) ∨
      (sp.clearsFirst = false ∧ pixel s px py = true) := by
  rw [blit_eq_setPixels]
  have hstart : ∃ b, b = (if sp.clearsFirst then fillWith 0x00 s else s) ∧ b.par = s.par ∧ b.rot = s.rot ∧ b.fb.wf ∧
      (pixel b px py = true ↔ sp.clearsFirst = false ∧ pixel s px py = true) := by
    cases sp.clearsFirst with
    | true => exact ⟨_, rfl, rfl, rfl, Memory.fill_wf hm _ _,
        iff_of_false (Bool.eq_false_iff.1 (pixel_fillWith s .clear hx hy)) (by simp)⟩
    | false => exact ⟨_, rfl, rfl, rfl, hm, by simp⟩
  obtain ⟨b, hb, hpar, hrot, hwf, hpixel⟩ := hstart
  rw [← hb]
  have hdrawn := setPixels_drawn (splashPoints sp a) hwf
  have himage : (∃ p ∈ splashPoints sp a, imagePixel b p.1 p.2 px py) ↔
      ∃ i j : Nat, i < a.w ∧ j < a.h ∧ a.bits.getD (j * a.w + i) false = true ∧
        xform s.par.width s.par.height s.rot (sp.x0 + i) (sp.y0 + j) = ((px : Int), (py : Int)) := by
    simp only [mem_splashPoints, imagePixel, panelPixels, hpar, hrot, hx, hy, true_and]
    constructor
    · rintro ⟨_, ⟨i, j, hi, hj, hbit, rfl⟩, hxform⟩
      exact ⟨i, j, hi, hj, hbit, hxform⟩
    · rintro ⟨i, j, hi, hj, hbit, hxform⟩
      exact ⟨_, ⟨i, j, hi, hj, hbit, rfl⟩, hxform⟩
  rw [← himage, ← hpixel]
  by_cases hS : ∃ p ∈ splashPoints sp a, imagePixel b p.1 p.2 px py
  · simp [hdrawn.pixel hS, hS, modeBit]
  · simp [hdrawn.pixel_other (by rwa [hpar]) hS, hS]

/-- The transaction after the events of steps 0 to 16 and some of step 17's is step 17's. -/
theorem step_of_flush_prefix {s : State} {pre post : List (Nat × Event)} {k : Nat} {x : Txn} {evs flush : List Event}
    (hsteps : initConfigSteps s.par ++ initStepEvents s.par 17 flush ++ initPowerSteps s.par =
      pre ++ (k, .bus x .ok) :: post)
    (hpre : pre.map Prod.snd = (initConfigSteps s.par).map Prod.snd ++ evs) (hlt : evs.length < flush.length) : k = 17 := by
  have hlength : pre.length = (initConfigSteps s.par).length + evs.length := by simpa using congrArg List.length hpre
  have hflush : evs.length < (initStepEvents s.par 17 flush).length := by
    simp only [initStepEvents, List.length_map, List.length_append]
    omega
  have hget := congrArg (fun l => l[pre.length]?) hsteps
  simp only [List.getElem?_append_right le_rfl, Nat.sub_self, List.getElem?_cons_zero] at hget
  rw [List.append_assoc, hlength, List.getElem?_append_right (by omega), Nat.add_sub_cancel_left,
    List.getElem?_append_left hflush] at hget
  exact step_of_mem_initStepEvents (List.mem_of_getElem? hget)

/-- Settles O49: the splash's instructions leave the canvas that INIT draws, flushes at step 17 and stands with there. -/
theorem splashBlitIsItsSetpixels : Obligations.SplashBlitIsItsSetpixels := by
  intro s sp a hl hrange hwin hm hsplash
  obtain ⟨u, hu, hcanvas⟩ := execAll_splashInstrs sp a (s := { s with rot := s.par.cfgRotation }) hl
  have hdrawn : initDrawn s = u := initDrawn_of_execAll (by
    rw [drawInstrs_some (splashAsset_of_splashAssetIs hsplash)]
    exact hu)
  refine ⟨u, hu, fun px py hx hy => ?_, fun t hexec hstatus => ?_, fun t evs x hexec htrace hpre => ?_⟩
  · rw [hcanvas.pixel]
    exact pixel_blit (s := { s with rot := s.par.cfgRotation }) hm sp a hx hy
  · rcases exec_init_cases hl hrange hwin hexec with ⟨-, hfb, htrace⟩ | ⟨_, _, _, _, -, herror, -⟩
    · rw [hfb, htrace, hdrawn, initEvents, initSteps, hdrawn]
      exact ⟨rfl, rfl⟩
    · rw [herror] at hstatus
      cases hstatus
  · rcases exec_init_cases hl hrange hwin hexec with ⟨-, -, htrace'⟩ | ⟨pre, k, y, post, hsteps, -, htrace', h17⟩
    · rw [htrace', List.append_assoc, List.append_assoc, List.append_cancel_left_eq] at htrace
      exact absurd (htrace ▸ initEvents_allOk hl) fun h => h x (by simp)
    · rw [htrace', List.append_assoc, List.append_assoc, List.append_assoc, List.append_cancel_left_eq,
        ← List.append_assoc] at htrace
      obtain ⟨hpre', -⟩ := List.append_inj' htrace rfl
      rw [initSteps, hdrawn] at hsteps
      rw [hdrawn] at h17
      refine h17 (step_of_flush_prefix hsteps hpre' ?_)
      have hle := hpre.length_le
      rw [List.length_append, List.length_singleton] at hle
      omega

end Sys2Proof.Machine
end

section
/-! How an operation of HOST ends (R28, R33, R264, R268, R270): refused, read, completed or aborted; for each operation, the
registers it leaves and the events it asks for. -/

namespace Sys2Proof.Machine

/-! ### The operations, in one shape -/

/-- The operations that put a value on the result port. -/
def reads : Instr → Bool
  | .getpixel _ _ | .rdbuf _ => true
  | _ => false

/-- The procedure of an operation that does not read. -/
def procOf : Instr → State → Flow
  | .init => initProc
  | .shutdown => shutdownProc
  | .release => fun s => .done { s with lstate := .hardwareReleased }
  | .setpixel x y mode => fun s => .done (setPixel x y mode s)
  | .fill mode => fillProc mode
  | .hspan x y len mode => fun s => .done (hSpanPhys x y len mode s)
  | .vspan x y len mode => fun s => .done (vSpanPhys x y len mode s)
  | .lhspan x y len mode => fun s => .done (logicalSpan .horizontal x y len mode s)
  | .lvspan x y len mode => fun s => .done (logicalSpan .vertical x y len mode s)
  | .flush => flushProc
  | .setpower on => powerProc on
  | .setinvert inv => invertProc inv
  | .setcontrast v => contrastProc v
  | .setrotation r => fun s => .done { s with rot := r }
  | .rawcmd c args => busCmd c args
  | _ => .done

/-- The registers and memory that a completed operation other than INIT leaves. -/
def opMade : Instr → State → State
  | .shutdown => fun s => { s with lstate := .poweredOff }
  | .release => fun s => { s with lstate := .hardwareReleased }
  | .setpixel x y mode => setPixel x y mode
  | .fill .set => fillWith 0xFF
  | .fill .clear => fillWith 0x00
  | .hspan x y len mode => hSpanPhys x y len mode
  | .vspan x y len mode => vSpanPhys x y len mode
  | .lhspan x y len mode => logicalSpan .horizontal x y len mode
  | .lvspan x y len mode => logicalSpan .vertical x y len mode
  | .flush => flushed
  | .setinvert inv => fun s => { s with inv := inv }
  | .setcontrast v => fun s => { s with contrast := v }
  | .setrotation r => fun s => { s with rot := r }
  | _ => id

/-- The registers while an operation other than INIT sends: SETINVERT and SETCONTRAST write theirs first (R211, R212). -/
def opDuring : Instr → State → State
  | .setinvert inv => fun s => { s with inv := inv }
  | .setcontrast v => fun s => { s with contrast := v }
  | _ => id

/-- What an operation other than INIT sends. -/
def opEvents : Instr → State → List Event
  | .flush => fun s => if isEmpty s then [] else flushEvents s
  | .setpower on => fun s =>
    if on then [okCmd s.par.cmds.displayAllOnResume [], okCmd s.par.cmds.displayOn []] else [okCmd s.par.cmds.displayOff []]
  | .setinvert inv => fun s => [okCmd (invertByte s.par.cmds inv) []]
  | .setcontrast v => fun s => [okCmd s.par.cmds.setContrast [v]]
  | .rawcmd c args => fun _ => [okCmd c args]
  | .shutdown => fun s => [okCmd s.par.cmds.displayOff []]
  | _ => fun _ => []

/-- An operation that does not read runs its procedure. -/
theorem exec_eq_runOp {i : Instr} {o : Op} {s t : State} (ho : i.op = some o) (hr : reads i = false)
    (h : exec i s = .next t) : t = runOp o (procOf i) s := by
  have hnext : ∀ {u : State}, Host.Outcome.next u = (.next t : Host.Outcome State Fault Refusal) → t = u := fun h => by
    injection h with h
    exact h.symm
  cases i <;> simp only [Instr.op, Option.some.injEq, reduceCtorEq] at ho <;> subst ho
  case init =>
    simp only [exec, execInit] at h
    split at h
    · cases h
    · exact hnext h
  case flush =>
    simp only [exec, execFlush] at h
    split at h
    · cases h
    · exact hnext h
  case getpixel => cases hr
  case rdbuf => cases hr
  all_goals exact hnext h

theorem exec_of_reads {i : Instr} {o : Op} {s t : State} (ho : i.op = some o) (hr : reads i = true)
    (h : exec i s = .next t) : t = refuse s ∨ (legal o s.lstate = true ∧ ∃ v, t = complete { s with result := v }) := by
  have hread : ∀ (o : Op) (value : State → Option Byte),
      Host.Outcome.next (runRead o value s) = (.next t : Host.Outcome State Fault Refusal) →
      t = refuse s ∨ (legal o s.lstate = true ∧ ∃ v, t = complete { s with result := v }) := fun o value h => by
    injection h with h
    rw [← h]
    rcases runRead_cases o value s with ⟨hl, v, -, e⟩ | e
    · exact .inr ⟨hl, v, e⟩
    · exact .inl e
  cases i <;> simp only [reads, reduceCtorEq] at hr <;> obtain rfl := Option.some.inj ho
  case getpixel => exact hread _ _ h
  case rdbuf => exact hread _ _ h

/-! ### What each operation sends -/

theorem SameCanvas.hSpanPhys {s t : State} (h : SameCanvas s t) (x y len : Int) (mode : Mode) :
    SameCanvas (hSpanPhys x y len mode s) (hSpanPhys x y len mode t) := by
  unfold Machine.hSpanPhys
  rw [h.par]
  split
  · exact h
  · exact ⟨rfl, h.rot, by simp [h.fb], by simp [h.win]⟩

theorem SameCanvas.vSpanPhys {s t : State} (h : SameCanvas s t) (x y len : Int) (mode : Mode) :
    SameCanvas (vSpanPhys x y len mode s) (vSpanPhys x y len mode t) := by
  unfold Machine.vSpanPhys
  rw [h.par]
  split
  · exact h
  · exact ⟨rfl, h.rot, by simp [h.fb], by simp [h.win]⟩

theorem SameCanvas.logicalSpan {s t : State} (h : SameCanvas s t) (d : Dir) (x y len : Int) (mode : Mode) :
    SameCanvas (logicalSpan d x y len mode s) (logicalSpan d x y len mode t) := by
  unfold Machine.logicalSpan writeSpan
  rw [h.par, h.rot]
  split
  · exact h
  · split
    · exact h.hSpanPhys _ _ _ _
    · exact h.vSpanPhys _ _ _ _

/-- A drawing procedure, which looks at the canvas alone, sends nothing. -/
theorem draw_sends {f : State → State} (honly : ∀ s, DrawsOnly s (f s))
    (hcanvas : ∀ s t, SameCanvas s t → SameCanvas (f s) (f t)) (s : State) :
    Sends s (steady s []) (f s) fun t => .done (f t) := by
  refine Sends.silent (honly s).regsOnly fun evs q => ⟨q, congrArg Flow.done ?_⟩
  have hsame := hcanvas s (sent s evs q) ⟨rfl, rfl, rfl, rfl⟩
  obtain ⟨m, w, e⟩ := honly (sent s evs q)
  obtain ⟨m', w', e'⟩ := honly s
  rw [e, e'] at hsame ⊢
  obtain rfl : m = m' := hsame.fb
  obtain rfl : w = w' := hsame.win
  rfl

/-- Each operation but INIT and FILL INVERT sends its events and leaves its registers. -/
theorem procOf_sends {i : Instr} (hne : i ≠ .init) (hfill : i ≠ .fill .invert) (s : State) :
    Sends s (steady (opDuring i s) (opEvents i s)) (opMade i s) (procOf i) := by
  have hsilent : Sends s (steady s []) s Flow.done := Sends.silent (.refl s) fun _ q => ⟨q, rfl⟩
  cases i with
  | init => exact absurd rfl hne
  | shutdown => exact shutdownProc_sends s
  | release => exact Sends.silent (lstate_regsOnly s .hardwareReleased) fun _ q => ⟨q, rfl⟩
  | setpixel x y mode => exact draw_sends (setPixel_drawsOnly x y mode) (fun _ _ h => h.setPixel x y mode) s
  | fill mode =>
    cases mode with
    | set => exact draw_sends (fillWith_drawsOnly 0xFF) (fun _ _ h => h.fillWith 0xFF) s
    | clear => exact draw_sends (fillWith_drawsOnly 0x00) (fun _ _ h => h.fillWith 0x00) s
    | invert => exact absurd rfl hfill
  | hspan x y len mode => exact draw_sends (hSpanPhys_drawsOnly x y len mode) (fun _ _ h => h.hSpanPhys x y len mode) s
  | vspan x y len mode => exact draw_sends (vSpanPhys_drawsOnly x y len mode) (fun _ _ h => h.vSpanPhys x y len mode) s
  | lhspan x y len mode =>
    exact draw_sends (logicalSpan_drawsOnly .horizontal x y len mode) (fun _ _ h => h.logicalSpan _ x y len mode) s
  | lvspan x y len mode =>
    exact draw_sends (logicalSpan_drawsOnly .vertical x y len mode) (fun _ _ h => h.logicalSpan _ x y len mode) s
  | flush => exact flushProc_sends s
  | setpower on =>
    cases on with
    | true => exact powerOn_sends s
    | false => exact powerOff_sends s
  | setinvert inv => exact invertProc_sends s inv
  | setcontrast v => exact contrastProc_sends s v
  | setrotation r =>
    exact Sends.silent ⟨s.win, r, s.contrast, s.compins, s.muxratio, s.inv, s.lstate, s.fb, rfl⟩ fun _ q => ⟨q, rfl⟩
  | rawcmd c args => exact rawcmd_sends s c args
  | _ => exact hsilent

theorem opEvents_allOk {i : Instr} (s : State) : AllOk (opEvents i s) := by
  by_cases h : i = .init ∨ i = .fill .invert
  · intro x hx
    rcases h with rfl | rfl <;> simp [opEvents] at hx
  · have hall := (procOf_sends (fun e => h (.inl e)) (fun e => h (.inr e)) s).allOk
    rwa [eventsOf_steady] at hall

/-- A part of events that all stand with the same registers. -/
theorem steady_eq_append {u v : State} {evs : List Event} {pre post : List (State × Event)} {e : Event}
    (h : steady u evs = pre ++ (v, e) :: post) : v = u ∧ evs = eventsOf pre ++ e :: eventsOf post := by
  refine ⟨eq_of_mem_steady (e := e) (evs := evs) (by simp [h]), ?_⟩
  rw [← eventsOf_steady u evs, h]
  simp

/-- How an operation other than INIT can end. -/
theorem exec_cases {i : Instr} {o : Op} {s t : State} (ho : i.op = some o) (hne : i ≠ .init) (h : exec i s = .next t) :
    t = refuse s ∨ (legal o s.lstate = true ∧ ((reads i = true ∧ ∃ v, t = complete { s with result := v }) ∨
      (∃ q, t = freeResult (complete (sent (opMade i s) (opEvents i s) q))) ∨
      ∃ pre x post, opEvents i s = pre ++ .bus x .ok :: post ∧
        t = freeResult (raiseTransportError (recordFail x (sent (opDuring i s) pre s.seq))))) := by
  cases hr : reads i with
  | true => exact (exec_of_reads ho hr h).imp_right fun ⟨hl, hv⟩ => ⟨hl, .inl ⟨rfl, hv⟩⟩
  | false =>
    rw [exec_eq_runOp ho hr h]
    cases hl : legal o s.lstate with
    | false => exact .inl (runOp_illegal hl _)
    | true =>
      by_cases hfill : i = .fill .invert
      · subst hfill
        exact .inl (runOp_legal hl _)
      · refine .inr ⟨rfl, .inr ?_⟩
        rcases (procOf_sends hne hfill s).runOp_cases hl with ⟨-, q, e⟩ | ⟨pre, u, x, post, hscr, -, -, e⟩
        · rw [eventsOf_steady] at e
          exact .inl ⟨q, e⟩
        · obtain ⟨rfl, hevs⟩ := steady_eq_append hscr
          exact .inr ⟨_, x, _, hevs, e⟩

/-- An operation completes or is refused at once, but for a flush of a window off the panel. -/
theorem exec_total {i : Instr} {s : State}
    (h : windowFits s = true ∨ ∃ o, i.op = some o ∧ legal o s.lstate = false) : ∃ t, exec i s = .next t := by
  cases i
  case flush =>
    refine ⟨_, if_neg ?_⟩
    rcases h with h | ⟨o, ho, h⟩
    · simp [flushLeavesPanel, h]
    · obtain rfl := Option.some.inj ho
      simp [flushLeavesPanel, h]
  case init =>
    refine ⟨_, if_neg ?_⟩
    rcases h with h | ⟨o, ho, h⟩
    · simp [initLeavesPanel, h]
    · obtain rfl := Option.some.inj ho
      simp [initLeavesPanel, h]
  all_goals exact ⟨_, rfl⟩

/-- How INIT can end (R242). -/
theorem exec_init_ends {s t : State} (h : exec .init s = .next t) :
    t = refuse s ∨ (s.lstate ≠ .hardwareReleased ∧
      ((∃ q, t = freeResult (complete (sent (tableMade initTable (regainController s)) (initEvents s) q))) ∨
      ∃ pre k x post, initSteps s = pre ++ (k, .bus x .ok) :: post ∧
        t = freeResult (loseController (raiseTransportError (recordFail x
          (sent (tableAt initTable (regainController s) k) (pre.map Prod.snd) (regainController s).seq)))))) := by
  rw [exec_eq_runOp (o := .init) rfl rfl h]
  by_cases hl : s.lstate = .hardwareReleased
  · exact .inl (runOp_illegal (by rw [hl]; rfl) _)
  · refine .inr ⟨hl, ?_⟩
    rcases runOp_init_cases hl with ⟨-, q, e⟩ | ⟨pre, k, x, post, hsteps, -, -, e⟩
    · exact .inl ⟨q, e⟩
    · exact .inr ⟨pre, k, x, post, hsteps, e⟩

/-- An operation that is not legal is refused (R268, R271). -/
theorem eq_refuse_of_illegal {i : Instr} {o : Op} {s t : State} (ho : i.op = some o) (hl : legal o s.lstate = false)
    (h : exec i s = .next t) : t = refuse s := by
  cases hr : reads i with
  | true => exact (exec_of_reads ho hr h).resolve_right fun hv => by simp [hl] at hv
  | false => rw [exec_eq_runOp ho hr h, runOp_illegal hl]

end Sys2Proof.Machine
end

section
/-! Every operation and every step: the trace, the inputs, the controller, the lifecycle and the refusal mark (R52, R57, R200,
R243, R264, R270, R271). -/

namespace Sys2Proof.Machine

/-! ### What every operation leaves of the trace and the inputs -/

/-- The same parameters, port, inputs, trace and refusal mark. -/
structure SameFront (s d : State) : Prop where
  par : d.par = s.par
  opw : d.opw = s.opw
  hostIn : d.hostIn = s.hostIn
  turns : d.turns = s.turns
  trace : d.trace = s.trace
  answers : d.answers = s.answers
  mark : d.refusalMark = s.refusalMark

theorem RegsOnly.front {s d : State} (h : RegsOnly s d) : SameFront s d := by
  obtain ⟨_, _, _, _, _, _, _, _, rfl⟩ := h
  exact ⟨rfl, rfl, rfl, rfl, rfl, rfl, rfl⟩

theorem regainController_front (s : State) : SameFront s (regainController s) := by
  rw [regainController_eq]
  exact ⟨rfl, rfl, rfl, rfl, rfl, rfl, rfl⟩

theorem SameFront.trans {s d e : State} (h : SameFront s d) (h' : SameFront d e) : SameFront s e :=
  ⟨h'.par.trans h.par, h'.opw.trans h.opw, h'.hostIn.trans h.hostIn, h'.turns.trans h.turns, h'.trace.trans h.trace,
    h'.answers.trans h.answers, h'.mark.trans h.mark⟩

/-- An operation of HOST ended in `t`, with the events `new` appended. -/
structure OpEnd (s t : State) (new : List Event) : Prop where
  par : t.par = s.par
  opw : t.opw = s.opw
  hostIn : t.hostIn = s.hostIn
  turns : t.turns = s.turns
  seq : t.seq = Seq.idle
  trace : t.trace = s.trace ++ new
  answers : t.answers = s.answers.drop (txnsOf new).length
  mark : s.refusalMark = true → t.refusalMark = true
  ends : (t.status ≠ .transportError ∧ AllOk new) ∨
    (t.status = .transportError ∧ ∃ pre x, AllOk pre ∧ new = pre ++ [.bus x .fail])

theorem allOk_nil : AllOk [] := fun x hx => by simp at hx

theorem opEnd_refuse (s : State) : OpEnd s (refuse s) [] :=
  ⟨rfl, rfl, rfl, rfl, rfl, (List.append_nil _).symm, rfl, fun _ => rfl, .inl ⟨by simp, allOk_nil⟩⟩

theorem opEnd_read (s : State) (v : Byte) : OpEnd s (complete { s with result := v }) [] :=
  ⟨rfl, rfl, rfl, rfl, rfl, (List.append_nil _).symm, rfl, id, .inl ⟨by simp, allOk_nil⟩⟩

theorem opEnd_completed {s d : State} (h : SameFront s d) {evs : List Event} (hok : AllOk evs) (q : Seq) :
    OpEnd s (freeResult (complete (sent d evs q))) evs where
  par := h.par
  opw := h.opw
  hostIn := h.hostIn
  turns := h.turns
  seq := rfl
  trace := congrArg (· ++ evs) h.trace
  answers := congrArg (List.drop _) h.answers
  mark := h.mark.trans
  ends := .inl ⟨by simp, hok⟩

/-- The trace side of a failed transaction. -/
theorem opEnd_aborted {s u : State} (h : SameFront s u) {evs : List Event} (hok : AllOk evs) (x : Txn) (q : Seq) :
    OpEnd s (freeResult (raiseTransportError (recordFail x (sent u evs q)))) (evs ++ [.bus x .fail]) where
  par := h.par
  opw := h.opw
  hostIn := h.hostIn
  turns := h.turns
  seq := rfl
  trace := by
    rw [← List.append_assoc, ← h.trace]
    rfl
  answers := by
    rw [txnsOf_append, List.length_append, ← h.answers, ← List.drop_drop]
    simp [recordFail, sent, txnsOf]
  mark := h.mark.trans
  ends := .inr ⟨by simp, evs, x, hok, rfl⟩

/-- Losing the controller changes nothing of the trace side. -/
theorem OpEnd.loseController {s t : State} {new : List Event} (h : OpEnd s (freeResult t) new) :
    OpEnd s (freeResult (loseController t)) new :=
  ⟨h.par, h.opw, h.hostIn, h.turns, h.seq, h.trace, h.answers, h.mark, h.ends⟩

theorem opDuring_regsOnly (i : Instr) (s : State) : RegsOnly s (opDuring i s) := by
  cases i with
  | setinvert inv => exact invert_regsOnly s inv
  | setcontrast v => exact contrast_regsOnly s v
  | _ => exact .refl s

theorem opMade_regsOnly (i : Instr) (s : State) : RegsOnly s (opMade i s) := by
  by_cases h : i = .init ∨ i = .fill .invert
  · rcases h with rfl | rfl <;> exact .refl s
  · exact (procOf_sends (fun e => h (.inl e)) (fun e => h (.inr e)) s).regs

theorem tableMade_regsOnly (s : State) (table : List InitAction) : RegsOnly s (tableMade table s) :=
  (runInit_sends 0 table s).regs

theorem tableAt_regsOnly (table : List InitAction) (s : State) (k : Nat) : RegsOnly s (tableAt table s k) := by
  induction table generalizing s k with
  | nil => exact .refl s
  | cons a rest ih =>
    cases k with
    | zero => exact actionDuring_regsOnly a s
    | succ k => exact (actionMade_regsOnly a s).trans (ih _ k)

/-- How every operation of HOST ends. -/
theorem exec_opEnd {i : Instr} {s t : State} (hi : i.op ≠ none) (h : exec i s = .next t) : ∃ new, OpEnd s t new := by
  obtain ⟨o, ho⟩ := Option.ne_none_iff_exists'.1 hi
  by_cases hne : i = .init
  · subst hne
    rcases exec_init_ends h with rfl | ⟨hl, ⟨q, rfl⟩ | ⟨pre, k, x, post, hsteps, rfl⟩⟩
    · exact ⟨_, opEnd_refuse s⟩
    · exact ⟨_, opEnd_completed ((regainController_front s).trans (tableMade_regsOnly _ _).front) (initEvents_allOk hl) q⟩
    · have hok : AllOk (pre.map Prod.snd) := AllOk.of_append_left (evs' := .bus x .ok :: post.map Prod.snd) (by
        have hall := initEvents_allOk hl
        rwa [initEvents, hsteps, List.map_append, List.map_cons] at hall)
      exact ⟨_, (opEnd_aborted ((regainController_front s).trans (tableAt_regsOnly _ _ k).front) hok x _).loseController⟩
  · rcases exec_cases ho hne h with rfl | ⟨-, ⟨-, v, rfl⟩ | ⟨q, rfl⟩ | ⟨pre, x, post, hevs, rfl⟩⟩
    · exact ⟨_, opEnd_refuse s⟩
    · exact ⟨_, opEnd_read s v⟩
    · exact ⟨_, opEnd_completed (opMade_regsOnly i s).front (opEvents_allOk s) q⟩
    · exact ⟨_, opEnd_aborted (opDuring_regsOnly i s).front (AllOk.of_append_left (hevs ▸ opEvents_allOk s)) x _⟩

/-- Settles O18: the last transaction alone can have failed. -/
theorem onlyTheLastTransactionCanFail : Obligations.OnlyTheLastTransactionCanFail := by
  intro i s t hi h
  obtain ⟨new, hend⟩ := exec_opEnd hi h
  refine ⟨new, hend.trace, ?_⟩
  rcases hend.ends with ⟨hstatus, hok⟩ | ⟨hstatus, pre, x, hok, rfl⟩
  · exact ⟨fun x hx => hok x (List.mem_of_mem_dropLast hx),
      iff_of_false hstatus fun ⟨x, hx⟩ => hok x (List.mem_of_getLast? hx), hend.seq⟩
  · exact ⟨fun y hy => hok y (by simpa using hy), iff_of_true hstatus ⟨x, by simp⟩, hend.seq⟩

/-! ### Every step -/

/-- The controller's RAM is a canonical memory of 8 pages of 132 columns (R74). -/
def RamOk (c : Controller) : Prop := c.ram.wf ∧ Memory.below (8 * ramColumns) c.ram

/-- What a step can be: HOST's word run, refused or not taken, a transaction lost with the controller, or one taken. -/
inductive Stepped (s : State) : State → Prop
  | ran {i : Instr} {w : Word} {rest : List Word} {t : State} (hi : i.op ≠ none)
      (h : exec i { s with turns := s.turns.tail, hostIn := rest, opw := w } = .next t) : Stepped s t
  | refused (rest : List Word) : Stepped s (refuse { s with turns := s.turns.tail, hostIn := rest })
  | waited (ws : List Word) : Stepped s { s with turns := s.turns.tail, hostIn := ws }
  | lost (rest : List Txn) (hl : s.ctlLost = true) :
      Stepped s (forgetController { s with turns := s.turns.tail, wire := rest })
  | took (rest : List Txn) (c : Controller) (f : Nat) (hl : s.ctlLost = false) (hram : RamOk s.ctl → RamOk c) :
      Stepped s { s with turns := s.turns.tail, wire := rest, ctl := c, freeIdx := f }

/-- A controller command changes the controller alone, and not its RAM (R77). -/
theorem controller_exec_ram {i : Instr} (h : i.op = none) (s : State) :
    ∃ c, exec i s = .next { s with ctl := c } ∧ c.ram = s.ctl.ram := by
  cases i <;> simp only [Instr.op, reduceCtorEq] at h <;> exact ⟨_, rfl, rfl⟩

theorem decodeHost_op {w : Word} {i : Instr} (h : decodeHost w = .ok i) : i.op ≠ none :=
  (decodedWordIsTheEncodingOfItsOperation cmdSetGK w i h).2.1

theorem stepped_of_fetchHost {s t : State} (hfetch : fetch s = fetchHost (takeTurn s)) (h : step s = .next t) :
    Stepped s t := by
  rcases fetchHost_cases (takeTurn s) with ⟨-, e⟩ | ⟨w, rest, -, ⟨-, e⟩ | ⟨-, i, hd, e⟩ | ⟨-, _, -, e⟩⟩
  · rw [step_settled (hfetch.trans e)] at h
    obtain rfl : takeTurn s = t := by injection h
    exact .waited s.hostIn
  · rw [step_settled (hfetch.trans e)] at h
    obtain rfl : { takeTurn s with hostIn := rest } = t := by injection h
    exact .waited rest
  · rw [step_run (hfetch.trans e)] at h
    exact .ran (decodeHost_op hd) h
  · rw [step_settled (hfetch.trans e)] at h
    obtain rfl : refuse { takeTurn s with hostIn := rest } = t := by injection h
    exact .refused rest

theorem stepped_of_fetchBus {s t : State} (hfetch : fetch s = fetchBus (takeTurn s)) (h : step s = .next t) :
    Stepped s t := by
  rcases fetchBus_cases (takeTurn s) with ⟨-, e⟩ | ⟨txn, rest, -, ⟨hl, e⟩ | ⟨hl, e⟩⟩
  · rw [step_settled (hfetch.trans e)] at h
    obtain rfl : takeTurn s = t := by injection h
    exact .waited s.hostIn
  · rw [step_settled (hfetch.trans e)] at h
    obtain rfl : forgetController { takeTurn s with wire := rest } = t := by injection h
    exact .lost rest hl
  · rcases fetchTxn_cases txn { takeTurn s with wire := rest } with ⟨bytes, -, e'⟩ | ⟨i, f, hi, e'⟩ | e'
    · rw [step_settled (hfetch.trans (e.trans e'))] at h
      obtain rfl : withController (storeBurst bytes) { takeTurn s with wire := rest } = t := by injection h
      exact .took rest (storeBurst bytes s.ctl) s.freeIdx hl (storeBurst_ram bytes)
    · rw [step_run (hfetch.trans (e.trans e'))] at h
      obtain ⟨c, hexec, hram⟩ := controller_exec_ram hi { takeTurn s with wire := rest, freeIdx := f }
      rw [hexec] at h
      obtain rfl : { takeTurn s with wire := rest, freeIdx := f, ctl := c } = t := by injection h
      exact .took rest c f hl fun hok => by
        rw [RamOk, hram]
        exact hok
    · rw [step_settled (hfetch.trans (e.trans e'))] at h
      obtain rfl : { takeTurn s with wire := rest } = t := by injection h
      exact .took rest s.ctl s.freeIdx hl id

theorem stepped {s t : State} (h : step s = .next t) : Stepped s t := by
  have hfetch : fetch s = fetchHost (takeTurn s) ∨ fetch s = fetchBus (takeTurn s) := by
    unfold fetch
    split
    · exact .inl rfl
    · exact .inr rfl
  exact hfetch.elim (stepped_of_fetchHost · h) (stepped_of_fetchBus · h)

/-- Settles O16: an operation appends to the trace, every other move leaves it. -/
theorem traceGrowsAndParametersStay : Obligations.TraceGrowsAndParametersStay := by
  intro s t h
  cases stepped h with
  | ran hi hexec =>
    obtain ⟨new, hend⟩ := exec_opEnd hi hexec
    exact ⟨⟨new, hend.trace.symm⟩, hend.par⟩
  | refused | waited | lost | took => exact ⟨List.prefix_refl _, rfl⟩

theorem step_refusalMark {s t : State} (h : step s = .next t) (hmark : s.refusalMark = true) : t.refusalMark = true := by
  cases stepped h with
  | ran hi hexec =>
    obtain ⟨new, hend⟩ := exec_opEnd hi hexec
    exact hend.mark hmark
  | refused => rfl
  | waited | lost | took => exact hmark

theorem run_refusalMark {k : Nat} {s t : State} (h : core.run k s = .next t) (hmark : s.refusalMark = true) :
    t.refusalMark = true := by
  induction k generalizing s with
  | zero =>
    obtain rfl : s = t := by injection h
    exact hmark
  | succ k ih =>
    obtain ⟨s', hs, hrun⟩ := exists_step_of_run h
    exact ih hrun (step_refusalMark hs hmark)

/-- Settles O17: the mark is kept by each step, so by the rest of a run. -/
theorem refusedRunsHaveNoMeaning : Obligations.RefusedRunsHaveNoMeaning := by
  refine ⟨fun s t h hmark => step_refusalMark h hmark, fun k n s t hrun hmark => ?_⟩
  rw [runMeaning, run_add hrun n]
  cases h : core.run n t with
  | next u => exact if_pos (run_refusalMark h hmark)
  | fault r => rfl
  | refused r => rfl

/-! ### The lifecycle (R243, R271) -/

/-- The model's table of legal states is R271's. -/
theorem mem_legalStates_iff (o : Op) (l : LState) : l ∈ legalStates o ↔ legal o l = true := by
  cases o <;> cases l <;> decide

/-- Settles O21: the legality check of every operation comes first. -/
theorem operationsOutsideTheirStatesAreRefused : Obligations.OperationsOutsideTheirStatesAreRefused := by
  intro i o s ho hl
  rw [mem_legalStates_iff, Bool.not_eq_true] at hl
  obtain ⟨t, h⟩ := exec_total (i := i) (.inr ⟨o, ho, hl⟩)
  exact ⟨t, h, eq_refuse_of_illegal ho hl h ▸ sameButRefused_refuse s⟩

theorem legal_hardwareReleased (o : Op) : legal o .hardwareReleased = false := by cases o <;> rfl

/-- Settles O20: every operation is refused, and the controller's moves are its own. -/
theorem hardwareReleasedIsTerminal : Obligations.HardwareReleasedIsTerminal := by
  intro s t hl h
  cases stepped h with
  | ran hi hexec =>
    obtain ⟨o, ho⟩ := Option.ne_none_iff_exists'.1 hi
    rw [eq_refuse_of_illegal ho (hl ▸ legal_hardwareReleased o) hexec]
    rfl
  | refused | waited | lost | took => rfl

/-- The operations other than INIT that move `LSTATE`. -/
theorem opMade_lstate (i : Instr) (s : State) : (opMade i s).lstate = s.lstate ∨
    (i = .shutdown ∧ (opMade i s).lstate = .poweredOff) ∨ (i = .release ∧ (opMade i s).lstate = .hardwareReleased) := by
  have hdraws : ∀ {d : State}, DrawsOnly s d → d.lstate = s.lstate := fun ⟨_, _, e⟩ => by rw [e]
  cases i with
  | shutdown => exact .inr (.inl ⟨rfl, rfl⟩)
  | release => exact .inr (.inr ⟨rfl, rfl⟩)
  | setpixel x y mode => exact .inl (hdraws (setPixel_drawsOnly x y mode s))
  | fill mode => cases mode <;> exact .inl rfl
  | hspan x y len mode => exact .inl (hdraws (hSpanPhys_drawsOnly x y len mode s))
  | vspan x y len mode => exact .inl (hdraws (vSpanPhys_drawsOnly x y len mode s))
  | lhspan x y len mode => exact .inl (hdraws (logicalSpan_drawsOnly .horizontal x y len mode s))
  | lvspan x y len mode => exact .inl (hdraws (logicalSpan_drawsOnly .vertical x y len mode s))
  | flush =>
    refine .inl ?_
    show (flushed s).lstate = s.lstate
    unfold flushed
    split <;> rfl
  | _ => exact .inl rfl

theorem opDuring_lstate (i : Instr) (s : State) : (opDuring i s).lstate = s.lstate := by
  cases i <;> rfl

theorem tableMade_lstate (s : State) : (tableMade initTable s).lstate = .active := by rw [tableMade_initTable]

/-- A failing INIT stands in `PoweredOff` (R242). -/
theorem initAt_lstate {s : State} (hl : s.lstate ≠ .hardwareReleased) {pre post : List (Nat × Event)} {k : Nat} {x : Txn}
    (h : initSteps s = pre ++ (k, .bus x .ok) :: post) (r : State) : (tableAt initTable r k).lstate = .poweredOff := by
  rw [tableAt_initTable r (step_of_initSteps hl h)]

/-- How an operation other than INIT moves `LSTATE` (R243). -/
theorem lstate_of_exec {i : Instr} {o : Op} {s t : State} (ho : i.op = some o) (hne : i ≠ .init) (h : exec i s = .next t) :
    t.lstate = s.lstate ∨ (i = .shutdown ∧ s.lstate = .active ∧ t.status = .ok ∧ t.lstate = .poweredOff) ∨
      (i = .release ∧ s.lstate = .poweredOff ∧ t.lstate = .hardwareReleased) := by
  rcases exec_cases ho hne h with rfl | ⟨hlegal, ⟨-, v, rfl⟩ | ⟨q, rfl⟩ | ⟨pre, x, post, -, rfl⟩⟩
  · exact .inl rfl
  · exact .inl rfl
  · rcases opMade_lstate i s with e | ⟨rfl, e⟩ | ⟨rfl, e⟩
    · exact .inl e
    · obtain rfl := Option.some.inj ho
      cases hl : s.lstate with
      | active => exact .inr (.inl ⟨rfl, rfl, rfl, rfl⟩)
      | poweredOff => exact .inl rfl
      | uninitialized => simp [hl, legal, legalBus] at hlegal
      | hardwareReleased => simp [hl, legal, legalBus] at hlegal
    · obtain rfl := Option.some.inj ho
      exact .inr (.inr ⟨rfl, by simpa [legal] using hlegal, rfl⟩)
  · exact .inl (opDuring_lstate i s)

theorem completed_lstate (d : State) (evs : List Event) (q : Seq) :
    (freeResult (complete (sent d evs q))).lstate = d.lstate := rfl

theorem lost_lstate (u : State) (x : Txn) (evs : List Event) (q : Seq) :
    (freeResult (loseController (raiseTransportError (recordFail x (sent u evs q))))).lstate = u.lstate := rfl

/-- Settles O19: INIT by its table, SHUTDOWN and RELEASE by their writes, no other operation or command. -/
theorem lifecycleMovesOnlyAsTabled : Obligations.LifecycleMovesOnlyAsTabled := by
  intro i s t h
  cases ho : i.op with
  | none =>
    obtain ⟨c, hexec, -⟩ := controller_exec_ram ho s
    rw [hexec] at h
    obtain rfl : { s with ctl := c } = t := by injection h
    exact .inl rfl
  | some o =>
    by_cases hne : i = .init
    · subst hne
      rcases exec_init_ends h with rfl | ⟨hl, ⟨q, rfl⟩ | ⟨pre, k, x, post, hsteps, rfl⟩⟩
      · exact .inl rfl
      · exact .inr (.inl ⟨rfl, hl, .inl ⟨rfl, (completed_lstate _ _ q).trans (tableMade_lstate _)⟩⟩)
      · exact .inr (.inl ⟨rfl, hl, .inr ⟨rfl, (lost_lstate _ x _ _).trans (initAt_lstate hl hsteps _)⟩⟩)
    · exact (lstate_of_exec ho hne h).imp_right .inr

end Sys2Proof.Machine
end

section
/-! What an operation leaves unchanged: the frames of buffer and bus operations, the controller, and what the window covers (R25,
R43, R52, R58, R83). -/

namespace Sys2Proof.Machine

/-! ### The controller and what is under way (R58, R59, R267) -/

theorem RegsOnly.bus {s d : State} (h : RegsOnly s d) : d.ctl = s.ctl ∧ d.ctlLost = s.ctlLost ∧ d.wire = s.wire := by
  obtain ⟨_, _, _, _, _, _, _, _, rfl⟩ := h
  exact ⟨rfl, rfl, rfl⟩

/-- An operation other than INIT leaves the controller and only adds to what is under way. -/
theorem exec_controller {i : Instr} {o : Op} {s t : State} (ho : i.op = some o) (hne : i ≠ .init) (h : exec i s = .next t) :
    t.ctl = s.ctl ∧ t.ctlLost = s.ctlLost ∧ s.wire <+: t.wire := by
  rcases exec_cases ho hne h with rfl | ⟨-, ⟨-, v, rfl⟩ | ⟨q, rfl⟩ | ⟨pre, x, post, -, rfl⟩⟩
  · exact ⟨rfl, rfl, List.prefix_refl _⟩
  · exact ⟨rfl, rfl, List.prefix_refl _⟩
  · obtain ⟨hctl, hlost, hwire⟩ := (opMade_regsOnly i s).bus
    exact ⟨hctl, hlost, _, congrArg (· ++ _) hwire.symm⟩
  · obtain ⟨hctl, hlost, hwire⟩ := (opDuring_regsOnly i s).bus
    exact ⟨hctl, hlost, _, (List.append_assoc _ _ _).symm.trans (congrArg (· ++ _ ++ _) hwire.symm)⟩

/-- What INIT does to the controller, by how it ends. -/
theorem exec_init_controller {s t : State} (h : exec .init s = .next t) :
    (t.status = .illegal ∧ t.ctl = s.ctl ∧ t.ctlLost = s.ctlLost ∧ s.wire <+: t.wire) ∨
    (t.status = .ok ∧ t.ctlLost = false ∧ (s.ctlLost = false → t.ctl = s.ctl ∧ s.wire <+: t.wire)) ∨
    (t.status = .transportError ∧ t.ctlLost = true ∧ t.wire = []) := by
  rcases exec_init_ends h with rfl | ⟨-, ⟨q, rfl⟩ | ⟨pre, k, x, post, -, rfl⟩⟩
  · exact .inl ⟨rfl, rfl, rfl, List.prefix_refl _⟩
  · obtain ⟨hctl, hlost, hwire⟩ := (tableMade_regsOnly (regainController s) initTable).bus
    generalize tableMade initTable (regainController s) = d at hctl hlost hwire ⊢
    generalize initEvents s = evs
    refine .inr (.inl ⟨rfl, hlost.trans (regainController_ctlLost s), fun hknown => ?_⟩)
    rw [regainController_of_known hknown] at hctl hwire
    exact ⟨hctl, _, congrArg (· ++ _) hwire.symm⟩
  · exact .inr (.inr ⟨rfl, rfl, rfl⟩)

/-- Settles O23: the trace side of every operation, the controller's side of INIT and of the others. -/
theorem hostOperationsTouchInputsAndControllerOnlySo : Obligations.HostOperationsTouchInputsAndControllerOnlySo := by
  intro i s t hi h
  obtain ⟨new, hend⟩ := exec_opEnd hi h
  refine ⟨⟨hend.par, hend.opw, hend.hostIn, hend.turns⟩, ⟨new, hend.trace, hend.answers⟩, ?_⟩
  by_cases hne : i = .init
  · subst hne
    have hother : ∀ {c c' : Status} {p : Prop}, t.status = c → c ≠ c' → t.status = c' → p := fun h hne h' =>
      absurd (h.symm.trans h') hne
    rcases exec_init_controller h with ⟨hstatus, hend⟩ | ⟨hstatus, hend⟩ | ⟨hstatus, hend⟩
    · exact ⟨fun _ => hend, fun _ => hother hstatus (by decide), fun _ => hother hstatus (by decide)⟩
    · exact ⟨fun hor => hor.elim (absurd rfl) (hother hstatus (by decide)), fun _ _ => hend, fun _ => hother hstatus (by decide)⟩
    · exact ⟨fun hor => hor.elim (absurd rfl) (hother hstatus (by decide)), fun _ => hother hstatus (by decide), fun _ _ => hend⟩
  · obtain ⟨o, ho⟩ := Option.ne_none_iff_exists'.1 hi
    exact ⟨fun _ => exec_controller ho hne h, fun e => absurd e hne, fun e => absurd e hne⟩

/-! ### Buffer operations (R131 to R137, R171 to R189, R244, R246) -/

/-- `d` is `s` but for the canvas, the rotation and `LSTATE`. -/
def CanvasOnly (s d : State) : Prop := d = { s with win := d.win, fb := d.fb, rot := d.rot, lstate := d.lstate }

theorem DrawsOnly.canvasOnly {s d : State} (h : DrawsOnly s d) :
    CanvasOnly s d ∧ d.rot = s.rot ∧ d.lstate = s.lstate := by
  obtain ⟨m, w, rfl⟩ := h
  exact ⟨rfl, rfl, rfl⟩

/-- What a buffer operation, SETROTATION, PRESETUP or RELEASE leaves: nothing sent, and few registers written. -/
structure BufferEnd (o : Op) (i : Instr) (s : State) : Prop where
  events : opEvents i s = []
  only : CanvasOnly s (opMade i s)
  rot : o ≠ .setrotation → (opMade i s).rot = s.rot
  lstate : o ≠ .release → (opMade i s).lstate = s.lstate
  canvas : o ∈ [Op.presetup, .release, .getpixel, .rdbuf, .setrotation] →
    (opMade i s).fb = s.fb ∧ (opMade i s).win = s.win

theorem bufferEnd_of_draws {o : Op} {i : Instr} {s : State} (hevents : opEvents i s = []) (h : DrawsOnly s (opMade i s))
    (ho : o ∉ [Op.presetup, .release, .getpixel, .rdbuf, .setrotation]) : BufferEnd o i s := by
  obtain ⟨honly, hrot, hlstate⟩ := h.canvasOnly
  exact ⟨hevents, honly, fun _ => hrot, fun _ => hlstate, fun h => absurd h ho⟩

theorem bufferEnd {i : Instr} {o : Op} (ho : i.op = some o) (hmem : o ∈ [Op.presetup, .release, .setpixel, .getpixel, .fill,
    .rdbuf, .hspan, .vspan, .lhspan, .lvspan, .setrotation]) (s : State) : BufferEnd o i s := by
  cases i <;> simp only [Instr.op, Option.some.injEq, reduceCtorEq] at ho <;> subst ho
  case presetup | getpixel | rdbuf => exact ⟨rfl, rfl, fun _ => rfl, fun _ => rfl, fun _ => ⟨rfl, rfl⟩⟩
  case release => exact ⟨rfl, rfl, fun _ => rfl, fun h => absurd rfl h, fun _ => ⟨rfl, rfl⟩⟩
  case setrotation => exact ⟨rfl, rfl, fun h => absurd rfl h, fun _ => rfl, fun _ => ⟨rfl, rfl⟩⟩
  case setpixel x y mode => exact bufferEnd_of_draws rfl (setPixel_drawsOnly x y mode s) (by decide)
  case fill mode =>
    refine bufferEnd_of_draws rfl ?_ (by decide)
    cases mode with
    | set => exact fillWith_drawsOnly 0xFF s
    | clear => exact fillWith_drawsOnly 0x00 s
    | invert => exact .refl s
  case hspan x y len mode => exact bufferEnd_of_draws rfl (hSpanPhys_drawsOnly x y len mode s) (by decide)
  case vspan x y len mode => exact bufferEnd_of_draws rfl (vSpanPhys_drawsOnly x y len mode s) (by decide)
  case lhspan x y len mode => exact bufferEnd_of_draws rfl (logicalSpan_drawsOnly .horizontal x y len mode s) (by decide)
  case lvspan x y len mode => exact bufferEnd_of_draws rfl (logicalSpan_drawsOnly .vertical x y len mode s) (by decide)
  all_goals simp at hmem

/-- Settles O24: a buffer operation is refused, reads, or completes with nothing sent. -/
theorem bufferOperationsIssueNoTransaction : Obligations.BufferOperationsIssueNoTransaction := by
  intro i o s t ho hmem h
  obtain ⟨hevents, honly, hrot, hlstate, hcanvas⟩ := bufferEnd ho hmem s
  have hne : i ≠ .init := by
    rintro rfl
    obtain rfl := Option.some.inj ho
    simp at hmem
  rcases exec_cases ho hne h with rfl | ⟨-, ⟨-, v, rfl⟩ | ⟨q, rfl⟩ | ⟨pre, x, post, hevs, -⟩⟩
  · exact ⟨rfl, fun _ => rfl, fun _ => rfl, fun _ => ⟨rfl, rfl⟩⟩
  · exact ⟨rfl, fun _ => rfl, fun _ => rfl, fun _ => ⟨rfl, rfl⟩⟩
  · rw [hevents, sent_nil]
    generalize opMade i s = d at honly hrot hlstate hcanvas ⊢
    refine ⟨?_, hrot, hlstate, hcanvas⟩
    rw [honly]
    rfl
  · rw [hevents] at hevs
    simp at hevs

/-! ### Bus operations and SHUTDOWN (R206, R210 to R213, R245) -/

/-- `d` is `s` but for the register that the bus operation `o` writes. -/
structure BusRegister (o : Op) (s d : State) : Prop where
  only : d = { s with win := d.win, inv := d.inv, contrast := d.contrast, lstate := d.lstate }
  win : o ≠ .flush → d.win = s.win
  inv : o ≠ .setinvert → d.inv = s.inv
  contrast : o ≠ .setcontrast → d.contrast = s.contrast
  lstate : o ≠ .shutdown → d.lstate = s.lstate

theorem busRegister_refl (o : Op) (s : State) : BusRegister o s s :=
  ⟨rfl, fun _ => rfl, fun _ => rfl, fun _ => rfl, fun _ => rfl⟩

theorem busRegister_flushed (s : State) : BusRegister .flush s (flushed s) := by
  unfold flushed
  split
  · exact busRegister_refl .flush s
  · exact ⟨rfl, fun h => absurd rfl h, fun _ => rfl, fun _ => rfl, fun _ => rfl⟩

theorem busRegister_opMade {i : Instr} {o : Op} (ho : i.op = some o)
    (hmem : o ∈ [Op.flush, .setpower, .setinvert, .setcontrast, .rawcmd, .shutdown]) (s : State) :
    BusRegister o s (opMade i s) := by
  cases i <;> simp only [Instr.op, Option.some.injEq, reduceCtorEq] at ho <;> subst ho
  case flush => exact busRegister_flushed s
  case setpower => exact busRegister_refl _ s
  case rawcmd => exact busRegister_refl _ s
  case setinvert => exact ⟨rfl, fun _ => rfl, fun h => absurd rfl h, fun _ => rfl, fun _ => rfl⟩
  case setcontrast => exact ⟨rfl, fun _ => rfl, fun _ => rfl, fun h => absurd rfl h, fun _ => rfl⟩
  case shutdown => exact ⟨rfl, fun _ => rfl, fun _ => rfl, fun _ => rfl, fun h => absurd rfl h⟩
  all_goals simp at hmem

theorem busRegister_opDuring {i : Instr} {o : Op} (ho : i.op = some o) (s : State) : BusRegister o s (opDuring i s) := by
  cases i with
  | setinvert inv =>
    obtain rfl := Option.some.inj ho
    exact ⟨rfl, fun _ => rfl, fun h => absurd rfl h, fun _ => rfl, fun _ => rfl⟩
  | setcontrast v =>
    obtain rfl := Option.some.inj ho
    exact ⟨rfl, fun _ => rfl, fun _ => rfl, fun h => absurd rfl h, fun _ => rfl⟩
  | _ => exact busRegister_refl o s

/-- Settles O25: a bus operation completes with the register it writes, or aborts with it. -/
theorem busOperationsWriteOnlyTheirRegister : Obligations.BusOperationsWriteOnlyTheirRegister := by
  intro i o s t ho hmem h
  have hne : i ≠ .init := by
    rintro rfl
    obtain rfl := Option.some.inj ho
    simp at hmem
  rcases exec_cases ho hne h with rfl | ⟨-, ⟨-, v, rfl⟩ | ⟨q, rfl⟩ | ⟨pre, x, post, -, rfl⟩⟩
  · exact ⟨rfl, fun _ => rfl, fun _ => rfl, fun _ => rfl, fun _ => rfl⟩
  · exact ⟨rfl, fun _ => rfl, fun _ => rfl, fun _ => rfl, fun _ => rfl⟩
  · obtain ⟨honly, hwin, hinv, hcontrast, hlstate⟩ := busRegister_opMade ho hmem s
    generalize opMade i s = d at honly hwin hinv hcontrast hlstate ⊢
    refine ⟨?_, hwin, hinv, hcontrast, hlstate⟩
    rw [honly]
    rfl
  · obtain ⟨honly, hwin, hinv, hcontrast, hlstate⟩ := busRegister_opDuring ho s
    generalize opDuring i s = d at honly hwin hinv hcontrast hlstate ⊢
    refine ⟨?_, hwin, hinv, hcontrast, hlstate⟩
    rw [honly]
    rfl

end Sys2Proof.Machine
end

section
/-! What the window covers (R25, R83), and operations that do not look at the rotation (R43). -/

namespace Sys2Proof.Machine

/-! ### The window covers every change (R25, R83) -/

/-- Every pixel that differs from `s` to `d` lies in the window of `d`. -/
def Covered (s d : State) : Prop :=
  ∀ px py, px < s.par.width → py < s.par.height → pixel d px py ≠ pixel s px py → inWindow d.win px py

/-- No pixel leaves the window from `s` to `d`. -/
def WindowGrows (s d : State) : Prop := ∀ px py, inWindow s.win px py → inWindow d.win px py

theorem covered_of_pixels {s d : State} (h : ∀ px py, pixel d px py = pixel s px py) : Covered s d := fun px py _ _ hne =>
  absurd (h px py) hne

theorem Drawn.covered {mode : Mode} {S : Pixels} {s d : State} (h : Drawn mode S s d) : Covered s d :=
  fun px py hx _ hne => h.win.holds (by
    by_contra hS
    exact hne (h.pixel_other hx hS))

theorem Drawn.windowGrows {mode : Mode} {S : Pixels} {s d : State} (h : Drawn mode S s d) : WindowGrows s d :=
  fun _ _ hin => h.win.grows hin

/-- FILL dirties the whole panel (R135). -/
theorem fillWith_covered (s : State) (v : Byte) : Covered s (fillWith v s) := fun px py hx hy _ => by
  unfold inWindow
  rw [fillWith_win]
  simp only
  omega

theorem fillWith_windowGrows (s : State) (v : Byte) : WindowGrows s (fillWith v s) := fun px py hin => by
  obtain ⟨h1, h2, h3, h4⟩ := hin
  unfold inWindow
  rw [fillWith_win]
  simp only
  omega

theorem pixel_flushed (s : State) (px py : Nat) : pixel (flushed s) px py = pixel s px py := by
  unfold flushed
  split <;> rfl

/-- What an operation other than INIT writes into the framebuffer lies in its window. -/
theorem opMade_covered (i : Instr) {s : State} (hm : s.fb.wf) : Covered s (opMade i s) := by
  cases i with
  | setpixel x y mode => exact (setPixel_drawn hm x y mode).covered
  | fill mode =>
    cases mode with
    | set => exact fillWith_covered s 0xFF
    | clear => exact fillWith_covered s 0x00
    | invert => exact covered_of_pixels fun _ _ => rfl
  | hspan x y len mode => exact (hSpanPhys_drawn hm x y len mode).covered
  | vspan x y len mode => exact (vSpanPhys_drawn hm x y len mode).covered
  | lhspan x y len mode => exact (logicalSpan_drawn hm .horizontal x y len mode).covered
  | lvspan x y len mode => exact (logicalSpan_drawn hm .vertical x y len mode).covered
  | flush => exact covered_of_pixels (pixel_flushed s)
  | _ => exact covered_of_pixels fun _ _ => rfl

/-- FLUSH alone takes pixels out of the window. -/
theorem opMade_windowGrows {i : Instr} (hne : i ≠ .flush) {s : State} (hm : s.fb.wf) : WindowGrows s (opMade i s) := by
  cases i with
  | flush => exact absurd rfl hne
  | setpixel x y mode => exact (setPixel_drawn hm x y mode).windowGrows
  | fill mode =>
    cases mode with
    | set => exact fillWith_windowGrows s 0xFF
    | clear => exact fillWith_windowGrows s 0x00
    | invert => exact fun _ _ => id
  | hspan x y len mode => exact (hSpanPhys_drawn hm x y len mode).windowGrows
  | vspan x y len mode => exact (vSpanPhys_drawn hm x y len mode).windowGrows
  | lhspan x y len mode => exact (logicalSpan_drawn hm .horizontal x y len mode).windowGrows
  | lvspan x y len mode => exact (logicalSpan_drawn hm .vertical x y len mode).windowGrows
  | _ => exact fun _ _ => id

theorem opDuring_canvas (i : Instr) (s : State) : SameCanvas s (opDuring i s) := by
  cases i <;> exact ⟨rfl, rfl, rfl, rfl⟩

/-- Settles O27: by the registers each operation leaves, completed or aborted. -/
theorem windowCoversEveryChangedPixel : Obligations.WindowCoversEveryChangedPixel := by
  intro i s t hi hne hwin hm h
  obtain ⟨o, ho⟩ := Option.ne_none_iff_exists'.1 hi
  rcases exec_cases ho hne h with rfl | ⟨-, ⟨-, v, rfl⟩ | ⟨q, rfl⟩ | ⟨pre, x, post, -, rfl⟩⟩
  · exact ⟨covered_of_pixels fun _ _ => rfl, fun _ _ _ => id⟩
  · exact ⟨covered_of_pixels fun _ _ => rfl, fun _ _ _ => id⟩
  · exact ⟨opMade_covered i hm, fun hflush => opMade_windowGrows hflush hm⟩
  · have hcanvas := opDuring_canvas i s
    refine ⟨covered_of_pixels fun px py => hcanvas.pixel px py, fun _ px py hin => ?_⟩
    rw [← hcanvas.win] at hin
    exact hin

/-! ### Operations that do not look at the rotation (R43) -/

/-- The rotation set, whatever else. -/
def rotated (r : Rot) (s : State) : State := { s with rot := r }

/-- The same end under another rotation. -/
def Flow.rotated (r : Rot) : Flow → Flow
  | .done s => .done (Machine.rotated r s)
  | .raised s => .raised (Machine.rotated r s)
  | .illegal s => .illegal (Machine.rotated r s)

/-- A procedure that does the same under every rotation. -/
def IgnoresRot (f : State → Flow) : Prop := ∀ r s, f (rotated r s) = (f s).rotated r

theorem IgnoresRot.bind {f g : State → Flow} (hf : IgnoresRot f) (hg : IgnoresRot g) :
    IgnoresRot fun s => (f s).bind g := fun r s => by
  show (f (rotated r s)).bind g = ((f s).bind g).rotated r
  rw [hf r s]
  cases f s with
  | done t => exact hg r t
  | raised t => rfl
  | illegal t => rfl

theorem busSend_rotated (x : Txn) (r : Rot) (s : State) : busSend x (rotated r s) = (busSend x s).rotated r := by
  rw [busSend, busSend, show answerOf (rotated r s) x = answerOf s x from rfl]
  cases answerOf s x <;> rfl

theorem ignoresRot_busSend {x : State → Txn} (hx : ∀ r s, x (rotated r s) = x s) : IgnoresRot fun s => busSend (x s) s :=
  fun r s => (congrArg (busSend · (rotated r s)) (hx r s)).trans (busSend_rotated (x s) r s)

theorem ignoresRot_flushPage (p : Nat) : IgnoresRot (flushPage p) :=
  IgnoresRot.bind (f := fun s => busCmd (pageByte s.par p) [] (setPhase .page (setPage p s)))
    (fun r s => ignoresRot_busSend (x := fun t => .cmd (pageByte t.par p) []) (fun _ _ => rfl) r
      (setPhase .page (setPage p s)))
  (IgnoresRot.bind (f := fun s => busCmd (lowColumnByte s.par (flushColumn s.par s.win.x1)) [] (setPhase .lowCol s))
    (fun r s => ignoresRot_busSend (x := fun t => .cmd (lowColumnByte t.par (flushColumn t.par t.win.x1)) [])
      (fun _ _ => rfl) r (setPhase .lowCol s))
  (IgnoresRot.bind (f := fun s => busCmd (highColumnByte s.par (flushColumn s.par s.win.x1)) [] (setPhase .highCol s))
    (fun r s => ignoresRot_busSend (x := fun t => .cmd (highColumnByte t.par (flushColumn t.par t.win.x1)) [])
      (fun _ _ => rfl) r (setPhase .highCol s))
    (fun r s => ignoresRot_busSend (x := fun t => .data (burst t p)) (fun _ _ => rfl) r (setPhase .data s))))

theorem ignoresRot_flushLoop (ps : List Nat) : IgnoresRot (flushLoop ps) := by
  induction ps with
  | nil => exact fun _ _ => rfl
  | cons p ps ih => exact (ignoresRot_flushPage p).bind ih

theorem ignoresRot_flushProc : IgnoresRot flushProc := fun r s => by
  have hloop := (ignoresRot_flushLoop (flushPages s)).bind (g := fun t => .done (dirtyReset t)) (fun _ _ => rfl) r s
  unfold flushProc
  rw [show isEmpty (rotated r s) = isEmpty s from rfl, show flushPages (rotated r s) = flushPages s from rfl]
  split
  · rfl
  · exact hloop

theorem ignoresRot_fillProc (mode : Mode) : IgnoresRot (fillProc mode) := fun r s => by cases mode <;> rfl

theorem hSpanPhys_rotated (x y len : Int) (mode : Mode) (r : Rot) (s : State) :
    hSpanPhys x y len mode (rotated r s) = rotated r (hSpanPhys x y len mode s) := by
  unfold hSpanPhys
  rw [show (rotated r s).par = s.par from rfl]
  split <;> rfl

theorem vSpanPhys_rotated (x y len : Int) (mode : Mode) (r : Rot) (s : State) :
    vSpanPhys x y len mode (rotated r s) = rotated r (vSpanPhys x y len mode s) := by
  unfold vSpanPhys
  rw [show (rotated r s).par = s.par from rfl]
  split <;> rfl

theorem runOp_rotated {f : State → Flow} (hf : IgnoresRot f) (op : Op) (r : Rot) (s : State) :
    runOp op f (rotated r s) = rotated r (runOp op f s) := by
  unfold runOp
  rw [show (rotated r s).lstate = s.lstate from rfl, show begin op (rotated r s) = rotated r (begin op s) from rfl,
    hf r (begin op s)]
  split
  · cases f (begin op s) <;> rfl
  · rfl

theorem runRead_rotated {value : State → Option Byte} (op : Op) (r : Rot) {s : State}
    (hvalue : value (rotated r s) = value s) : runRead op value (rotated r s) = rotated r (runRead op value s) := by
  unfold runRead
  rw [show (rotated r s).lstate = s.lstate from rfl, hvalue]
  split
  · cases value s <;> rfl
  · rfl

/-- Settles O26: none of the five procedures reads `ROT`. -/
theorem physicalOperationsIgnoreRotation : Obligations.PhysicalOperationsIgnoreRotation := by
  intro i o s t r ho hmem h
  have hnext : ∀ {u : State}, Host.Outcome.next u = (.next t : Host.Outcome State Fault Refusal) → u = t := fun h => by
    injection h
  cases i <;> simp only [Instr.op, Option.some.injEq, reduceCtorEq] at ho <;> subst ho
  case hspan x y len mode =>
    have hf : IgnoresRot fun s => .done (hSpanPhys x y len mode s) := fun r s =>
      congrArg Flow.done (hSpanPhys_rotated x y len mode r s)
    exact congrArg _ ((runOp_rotated hf .hspan r s).trans (congrArg _ (hnext h)))
  case vspan x y len mode =>
    have hf : IgnoresRot fun s => .done (vSpanPhys x y len mode s) := fun r s =>
      congrArg Flow.done (vSpanPhys_rotated x y len mode r s)
    exact congrArg _ ((runOp_rotated hf .vspan r s).trans (congrArg _ (hnext h)))
  case fill mode => exact congrArg _ ((runOp_rotated (ignoresRot_fillProc mode) .fill r s).trans (congrArg _ (hnext h)))
  case rdbuf n => exact congrArg _ ((runRead_rotated (value := readBuffer n) .rdbuf r rfl).trans (congrArg _ (hnext h)))
  case flush =>
    cases hleaves : flushLeavesPanel s with
    | true => simp [exec, execFlush, hleaves] at h
    | false =>
      have hexec : ∀ u : State, flushLeavesPanel u = false → exec .flush u = .next (runOp .flush flushProc u) :=
        fun _ hu => if_neg (Bool.eq_false_iff.1 hu)
      rw [hexec s hleaves] at h
      rw [show ({ s with rot := r } : State) = rotated r s from rfl, hexec (rotated r s) hleaves,
        runOp_rotated ignoresRot_flushProc, hnext h]
      rfl
  all_goals simp at hmem

end Sys2Proof.Machine
end

section
/-! The invariant of the machine: after construction, through every step, and what follows of every run (R8, R22, R53, R74, R261,
R272). -/

namespace Sys2Proof.Machine

/-! ### Construction -/

theorem inv_construct {p : Params} {u : Unstated} (hp : p.inRange = true) (hfb : u.fb.wf)
    (hfb' : Memory.below (p.width * ((p.height + 7) / 8)) u.fb) (hram : u.ctl.ram.wf)
    (hram' : Memory.below (8 * 132) u.ctl.ram) : Inv (State.construct p u) where
  params := hp
  window := .inl rfl
  idle := rfl
  fb := ⟨hfb, hfb'⟩
  ram := ⟨hram, hram'⟩
  error := fun h => by cases h
  quiet := fun _ => rfl
  lost := fun h => by cases h

/-- Settles O12: what construction leaves open fits by assumption, and the reset memories are empty. -/
theorem invariantHoldsAtConstruction : Obligations.InvariantHoldsAtConstruction :=
  ⟨fun _ _ hp hfb hfb' hram hram' => inv_construct hp hfb hfb' hram hram',
    inv_construct (by decide) Memory.wf_nil (fun _ h => by cases h) Memory.wf_nil fun _ h => by cases h⟩

/-! ### The parts of the invariant -/

theorem Inv.canvas {s : State} (h : Inv s) : Canvas s where
  width := (inRange_size h.params).1
  height := (inRange_size h.params).2
  window := h.window
  wf := h.fb.1
  below := h.fb.2

/-- The invariant, from the canvas and the rest. -/
theorem Canvas.inv {s : State} (h : Canvas s) (hp : s.par.inRange = true) (hidle : s.seq = Seq.idle) (hram : RamOk s.ctl)
    (herror : s.status = .transportError → endsFailed s) (hquiet : s.lstate = .uninitialized → s.trace = [])
    (hlost : s.ctlLost = true → s.lstate = .poweredOff ∨ s.lstate = .hardwareReleased) : Inv s :=
  ⟨hp, h.window, hidle, ⟨h.wf, h.below⟩, hram, herror, hquiet, hlost⟩

theorem SameCanvas.canvas {s t : State} (h : SameCanvas s t) (hs : Canvas s) : Canvas t where
  width := h.par ▸ hs.width
  height := h.par ▸ hs.height
  window := by
    unfold WindowOk windowEmpty windowInPanel
    rw [h.par, h.win]
    exact hs.window
  wf := h.fb ▸ hs.wf
  below := by
    rw [fblen_eq, h.par, h.fb]
    exact hs.below

/-! Every operation keeps the canvas in order. -/

theorem flushed_canvas {s : State} (h : Canvas s) : Canvas (flushed s) := by
  unfold flushed
  split
  · exact h
  · exact dirtyReset_canvas h

theorem opMade_canvas (i : Instr) {s : State} (h : Canvas s) : Canvas (opMade i s) := by
  cases i with
  | setpixel x y mode => exact setPixel_canvas x y mode h
  | fill mode =>
    cases mode with
    | set => exact fillWith_canvas 0xFF h
    | clear => exact fillWith_canvas 0x00 h
    | invert => exact h
  | hspan x y len mode => exact hSpanPhys_canvas x y len mode h
  | vspan x y len mode => exact vSpanPhys_canvas x y len mode h
  | lhspan x y len mode => exact logicalSpan_canvas .horizontal x y len mode h
  | lvspan x y len mode => exact logicalSpan_canvas .vertical x y len mode h
  | flush => exact flushed_canvas h
  | _ => exact ⟨h.width, h.height, h.window, h.wf, h.below⟩

theorem actionMade_canvas (a : InitAction) {s : State} (h : Canvas s) : Canvas (actionMade a s) := by
  cases a with
  | clearOrSplash => exact clearOrSplash_canvas h
  | flush => exact flushed_canvas h
  | command w c args => cases w <;> exact ⟨h.width, h.height, h.window, h.wf, h.below⟩
  | lifecycle l => exact ⟨h.width, h.height, h.window, h.wf, h.below⟩
  | startLine => exact h
  | applyRotation => exact ⟨h.width, h.height, h.window, h.wf, h.below⟩

theorem actionDuring_canvas (a : InitAction) {s : State} (h : Canvas s) : Canvas (actionDuring a s) := by
  by_cases ha : a = .flush
  · subst ha
    exact h
  · rw [actionDuring_of_ne ha]
    exact actionMade_canvas a h

theorem tableMade_canvas (table : List InitAction) {s : State} (h : Canvas s) : Canvas (tableMade table s) := by
  induction table generalizing s with
  | nil => exact h
  | cons a rest ih => exact ih (actionMade_canvas a h)

theorem tableAt_canvas (table : List InitAction) {s : State} (h : Canvas s) (k : Nat) : Canvas (tableAt table s k) := by
  induction table generalizing s k with
  | nil => exact h
  | cons a rest ih =>
    cases k with
    | zero => exact actionDuring_canvas a h
    | succ k => exact ih (actionMade_canvas a h) k

theorem completed_canvas {d : State} (h : Canvas d) (evs : List Event) (q : Seq) :
    Canvas (freeResult (complete (sent d evs q))) :=
  ⟨h.width, h.height, h.window, h.wf, h.below⟩

theorem aborted_canvas {u : State} (h : Canvas u) (evs : List Event) (x : Txn) (q : Seq) :
    Canvas (freeResult (raiseTransportError (recordFail x (sent u evs q)))) :=
  ⟨h.width, h.height, h.window, h.wf, h.below⟩

theorem lost_canvas {u : State} (h : Canvas u) (evs : List Event) (x : Txn) (q : Seq) :
    Canvas (freeResult (loseController (raiseTransportError (recordFail x (sent u evs q))))) :=
  ⟨h.width, h.height, h.window, h.wf, h.below⟩

/-- The canvas after an operation, however it ended. -/
theorem exec_canvas {i : Instr} {s t : State} (hi : i.op ≠ none) (h : exec i s = .next t) (hs : Canvas s) : Canvas t := by
  obtain ⟨o, ho⟩ := Option.ne_none_iff_exists'.1 hi
  by_cases hne : i = .init
  · subst hne
    have hr : Canvas (regainController s) := (regainController_sameCanvas s).canvas hs
    rcases exec_init_ends h with rfl | ⟨-, ⟨q, rfl⟩ | ⟨pre, k, x, post, -, rfl⟩⟩
    · exact ⟨hs.width, hs.height, hs.window, hs.wf, hs.below⟩
    · exact completed_canvas (tableMade_canvas initTable hr) _ q
    · exact lost_canvas (tableAt_canvas initTable hr k) _ x _
  · rcases exec_cases ho hne h with rfl | ⟨-, ⟨-, v, rfl⟩ | ⟨q, rfl⟩ | ⟨pre, x, post, -, rfl⟩⟩
    · exact ⟨hs.width, hs.height, hs.window, hs.wf, hs.below⟩
    · exact ⟨hs.width, hs.height, hs.window, hs.wf, hs.below⟩
    · exact completed_canvas (opMade_canvas i hs) _ q
    · exact aborted_canvas ((opDuring_canvas i s).canvas hs) _ x _

/-! The controller's side. -/

theorem regainController_ram {s : State} (h : RamOk s.ctl) : RamOk (regainController s).ctl := by
  rcases regainController_cases s with ⟨-, e⟩ | ⟨-, e⟩
  · rwa [e]
  · rw [e]
    exact indeterminate_ram s.freeIdx

/-- The controller's RAM after an operation: as it was, or free. -/
theorem exec_ram {i : Instr} {s t : State} (hi : i.op ≠ none) (h : exec i s = .next t) (hs : RamOk s.ctl) : RamOk t.ctl := by
  obtain ⟨o, ho⟩ := Option.ne_none_iff_exists'.1 hi
  by_cases hne : i = .init
  · subst hne
    rcases exec_init_ends h with rfl | ⟨-, ⟨q, rfl⟩ | ⟨pre, k, x, post, -, rfl⟩⟩
    · exact hs
    · have hctl := (tableMade_regsOnly (regainController s) initTable).bus.1
      generalize tableMade initTable (regainController s) = d at hctl ⊢
      exact hctl ▸ regainController_ram hs
    · exact indeterminate_ram _
  · rw [(exec_controller ho hne h).1]
    exact hs

/-- A controller lost after an operation (R59, R242, R267). -/
theorem exec_lost {i : Instr} {s t : State} (hi : i.op ≠ none) (h : exec i s = .next t)
    (hs : s.ctlLost = true → s.lstate = .poweredOff ∨ s.lstate = .hardwareReleased) (ht : t.ctlLost = true) :
    t.lstate = .poweredOff ∨ t.lstate = .hardwareReleased := by
  obtain ⟨o, ho⟩ := Option.ne_none_iff_exists'.1 hi
  by_cases hne : i = .init
  · subst hne
    rcases exec_init_ends h with rfl | ⟨hl, ⟨q, rfl⟩ | ⟨pre, k, x, post, hsteps, rfl⟩⟩
    · exact hs ht
    · have hlost := (tableMade_regsOnly (regainController s) initTable).bus.2.1
      generalize tableMade initTable (regainController s) = d at hlost ht
      exact absurd ((regainController_ctlLost s).symm.trans (hlost.symm.trans ht)) Bool.false_ne_true
    · exact .inl ((lost_lstate _ x _ _).trans (initAt_lstate hl hsteps _))
  · have hlost := (exec_controller ho hne h).2.1
    rcases lstate_of_exec ho hne h with hl | ⟨-, -, -, hl⟩ | ⟨-, -, hl⟩
    · rw [hl]
      exact hs (hlost ▸ ht)
    · exact .inl hl
    · exact .inr hl

/-- Nothing that is legal in `Uninitialized` sends, but for INIT (R271, R272). -/
theorem opEvents_of_uninitialized {i : Instr} {o : Op} (ho : i.op = some o) (hl : legal o .uninitialized = true) (s : State) :
    opEvents i s = [] := by
  cases i with
  | flush => exact absurd (Option.some.inj ho ▸ hl) (by decide)
  | setpower => exact absurd (Option.some.inj ho ▸ hl) (by decide)
  | setinvert => exact absurd (Option.some.inj ho ▸ hl) (by decide)
  | setcontrast => exact absurd (Option.some.inj ho ▸ hl) (by decide)
  | rawcmd => exact absurd (Option.some.inj ho ▸ hl) (by decide)
  | shutdown => exact absurd (Option.some.inj ho ▸ hl) (by decide)
  | _ => rfl

/-- In `Uninitialized` nothing was sent (R272). -/
theorem exec_quiet {i : Instr} {s t : State} (hi : i.op ≠ none) (h : exec i s = .next t)
    (hs : s.lstate = .uninitialized → s.trace = []) (ht : t.lstate = .uninitialized) : t.trace = [] := by
  obtain ⟨o, ho⟩ := Option.ne_none_iff_exists'.1 hi
  by_cases hne : i = .init
  · subst hne
    rcases exec_init_ends h with rfl | ⟨hl, ⟨q, rfl⟩ | ⟨pre, k, x, post, hsteps, rfl⟩⟩
    · exact hs ht
    · rw [completed_lstate, tableMade_lstate] at ht
      cases ht
    · rw [lost_lstate, initAt_lstate hl hsteps] at ht
      cases ht
  · have hl : s.lstate = .uninitialized := by
      rcases lstate_of_exec ho hne h with hl | ⟨-, -, -, hl⟩ | ⟨-, -, hl⟩
      · exact hl.symm.trans ht
      · cases hl.symm.trans ht
      · cases hl.symm.trans ht
    rcases exec_cases ho hne h with rfl | ⟨hlegal, hend⟩
    · exact hs hl
    · have hevents := opEvents_of_uninitialized ho (hl ▸ hlegal) s
      rcases hend with ⟨-, v, rfl⟩ | ⟨q, rfl⟩ | ⟨pre, x, post, hevs, -⟩
      · exact hs hl
      · rw [hevents, sent_nil]
        exact (opMade_regsOnly i s).trace.trans (hs hl)
      · simp [hevents] at hevs

/-- A failed transaction is the last event where `STATUS` says so (R261, R264). -/
theorem OpEnd.endsFailed {s t : State} {new : List Event} (h : OpEnd s t new) (hstatus : t.status = .transportError) :
    endsFailed t := by
  rcases h.ends with ⟨hne, -⟩ | ⟨-, pre, x, -, rfl⟩
  · exact absurd hstatus hne
  · exact ⟨x, by rw [h.trace, ← List.append_assoc, List.getLast?_append_cons, List.getLast?_singleton]⟩

/-- Every operation keeps the invariant. -/
theorem exec_inv {i : Instr} {s t : State} (hi : i.op ≠ none) (h : exec i s = .next t) (hs : Inv s) : Inv t := by
  obtain ⟨new, hend⟩ := exec_opEnd hi h
  exact (exec_canvas hi h hs.canvas).inv (hend.par ▸ hs.params) hend.seq (exec_ram hi h hs.ram) hend.endsFailed
    (exec_quiet hi h hs.quiet) (exec_lost hi h hs.lost)

/-- The invariant says nothing of the port, the turns and what is under way. -/
theorem Inv.inputs {s : State} (h : Inv s) (ts : List Agent) (ws : List Word) (w : Word) (txns : List Txn) (as : List Answer) :
    Inv { s with turns := ts, hostIn := ws, opw := w, wire := txns, answers := as } :=
  ⟨h.params, h.window, h.idle, h.fb, h.ram, h.error, h.quiet, h.lost⟩

theorem Inv.controller {s : State} (h : Inv s) {c : Controller} (hc : RamOk c) (f : Nat) :
    Inv { s with ctl := c, freeIdx := f } :=
  ⟨h.params, h.window, h.idle, h.fb, hc, h.error, h.quiet, h.lost⟩

theorem Inv.refuse {s : State} (h : Inv s) : Inv (refuse s) :=
  ⟨h.params, h.window, rfl, h.fb, h.ram, fun e => (by simp at e), h.quiet, h.lost⟩

/-- Settles O13: an operation keeps the invariant, and every other move touches the port, the bus or the controller's RAM. -/
theorem everyStepKeepsTheInvariant : Obligations.EveryStepKeepsTheInvariant := by
  intro s t hs h
  cases stepped h with
  | ran hi hexec => exact exec_inv hi hexec (hs.inputs _ _ _ s.wire s.answers)
  | refused rest => exact (hs.inputs s.turns.tail rest s.opw s.wire s.answers).refuse
  | waited ws => exact hs.inputs s.turns.tail ws s.opw s.wire s.answers
  | lost rest _ =>
    exact (hs.inputs s.turns.tail s.hostIn s.opw rest s.answers).controller (indeterminate_ram s.freeIdx) (s.freeIdx + 1)
  | took rest c f _ hram => exact (hs.inputs s.turns.tail s.hostIn s.opw rest s.answers).controller (hram hs.ram) f

/-! ### What follows of every step and every run -/

/-- An instruction runs with the parameters and the window of the state it was found in. -/
theorem fetch_run_window {s t : State} {i : Instr} (h : fetch s = .run i t) : t.par = s.par ∧ t.win = s.win := by
  unfold fetch at h
  split at h
  · rcases fetchHost_cases (takeTurn s) with ⟨-, e⟩ | ⟨w, rest, -, ⟨-, e⟩ | ⟨-, j, -, e⟩ | ⟨-, _, -, e⟩⟩
    · cases e.symm.trans h
    · cases e.symm.trans h
    · cases e.symm.trans h
      exact ⟨rfl, rfl⟩
    · cases e.symm.trans h
  · rcases fetchBus_cases (takeTurn s) with ⟨-, e⟩ | ⟨txn, rest, -, ⟨-, e⟩ | ⟨-, e⟩⟩
    · cases e.symm.trans h
    · cases e.symm.trans h
    · rcases fetchTxn_cases txn { takeTurn s with wire := rest } with ⟨bytes, -, e'⟩ | ⟨j, f, -, e'⟩ | e'
      · cases (e.trans e').symm.trans h
      · cases (e.trans e').symm.trans h
        exact ⟨rfl, rfl⟩
      · cases (e.trans e').symm.trans h

/-- Settles O14: what a step finds settles or runs, and with the window in order nothing that runs faults. -/
theorem everyStepFromAnOrderlyStateCompletes : Obligations.EveryStepFromAnOrderlyStateCompletes := by
  intro s hs
  cases h : fetch s with
  | settled t => exact ⟨t, step_settled h⟩
  | run i t =>
    obtain ⟨hpar, hwin⟩ := fetch_run_window h
    have hfits : windowFits t = true := by
      unfold windowFits
      rw [hpar, hwin]
      exact hs.window.windowFits hs.canvas.width hs.canvas.height
    obtain ⟨u, hu⟩ := exec_total (i := i) (.inl hfits)
    exact ⟨u, (step_run h).trans hu⟩

theorem run_inv {k : Nat} {s t : State} (h : core.run k s = .next t) (hs : Inv s) : Inv t := by
  induction k generalizing s with
  | zero =>
    obtain rfl : s = t := by injection h
    exact hs
  | succ k ih =>
    obtain ⟨s', hstep, hrun⟩ := exists_step_of_run h
    exact ih hrun (everyStepKeepsTheInvariant s s' hs hstep)

/-- Settles O15: the invariant holds at construction, whatever the inputs, and along the run. -/
theorem windowInvariantOnEveryRun : Obligations.WindowInvariantOnEveryRun := by
  intro p u ws as ts k t hp hfb hfb' hram hram' hrun
  have hinv : Inv t := run_inv hrun ((inv_construct hp hfb hfb' hram hram').inputs ts ws u.opw [] as)
  refine hinv.window.imp_right fun ⟨hx, hx', hy, hy'⟩ => ?_
  omega

end Sys2Proof.Machine
end
